-- ==== Sys2Proof/Word.lean ====
section
/-! DEFINITION. The word and element types of the block (00_scope.md R10, R11; 10_state.md R22 to R36).
Every quantity is unsigned; nothing in the block is sign-extended (R10). -/

namespace Sys2Proof

/-- An interval sample or a record byte: 8 bits, unsigned (R83, R94; `SAMPLE_W` of R7). -/
abbrev Byte := BitVec 8

/-- A clock period: 5 bits, unsigned (R84; `PERIOD_W` of R7). -/
abbrev Period := BitVec 5

/-- A word of the input port, format HOSTOP: 10 bits (R81). -/
abbrev HostWord := BitVec 10

/-- The window word `w[7:0]` at the decode cursor (R87). -/
abbrev WindowWord := BitVec 8

/-- The `check` field of a record event: 56 bits, unsigned (R98). -/
abbrev Check := BitVec 56

/-- The check-value accumulator with its carry position: 57 bits hold the 56-bit engine's register and bit 56,
and the CRC-16's register and bit 16 (R32). -/
abbrev Acc := BitVec 57

/-- A waveform symbol (R11). -/
inductive Symbol where
  /-- `-`, bit 0. -/
  | filler
  /-- `|`, bit 1. -/
  | separator
deriving DecidableEq, Repr

/-- The symbol as a bit: filler 0, separator 1 (R11). -/
def Symbol.bit : Symbol → Bool
  | .filler => false
  | .separator => true

/-- The symbol that a bit stands for (R11). -/
def Symbol.ofBit : Bool → Symbol
  | false => .filler
  | true => .separator

end Sys2Proof
end

