-- ==== Sys2Proof/Machine/Params.lean ====
section
/-! DEFINITION. The hardwired constants of the components (00_scope.md R7, 10_state.md R35). None has an address and
none is writable. -/

namespace Sys2Proof.Machine

/-- `START`: where the decode cursor starts in the waveform (R7, R189). -/
def startOffset : Nat := 2

/-- `PREAMBLE`: the byte prepended to every checked message (R7, R100). -/
def preamble : Byte := 0xA1

/-- `CAP_DM`: the most bytes of a Data Mark that are checked and reported (R7). -/
def capDm : Nat := 520
/-- `CAP_AM` (R7). -/
def capAm : Nat := 6
/-- `CAP_UNK` (R7). -/
def capUnk : Nat := 20

/-- `KIND_DIAG` (R7, R96). -/
def kindDiag : Nat := 4
/-- `KIND_REC` (R7, R96). -/
def kindRec : Nat := 6

/-- `SENTINEL`: the check field of an Unknown record (R7, R99). -/
def sentinel : Check := 0xF

/-- The width, polynomial (bit `n` included) and initial value of a check-value engine (R7, R231). -/
structure Engine where
  n : Nat
  poly : Acc
  init : Acc
deriving DecidableEq, Repr

/-- `N16`, `POLY16`, `INIT16` (R7, R234). -/
def engine16 : Engine := ⟨16, 0x11021, 0xFFFF⟩

/-- `N56`, `POLY56`, `INIT56` (R7, R235). -/
def engine56 : Engine := ⟨56, 0x1140A0445000101, 0xFFFFFFFFFFFFFF⟩

end Sys2Proof.Machine
end

