-- ==== Sys2Proof/Machine/Operands.lean ====
section
/-! DEFINITION. The ways a rule reaches storage (20_memory.md R72) and the assembly of operands from bits
(30_encoding.md R83, R87, R93, R100). -/

namespace Sys2Proof.Machine

/-- `MemRead(S, a, n)`: the n consecutive elements of a sequence space from index a, or `none` for `ABSENT` where they
do not all exist (R12, R56). -/
def memRead {α : Type} (xs : List α) (a n : Nat) : Option (List α) :=
  if a + n ≤ xs.length then some ((xs.drop a).take n) else none

/-- `s[i:j]`, clipped to the length of s (R9). -/
def slice {α : Type} (xs : List α) (i j : Nat) : List α := (xs.take j).drop i

/-- The last-two read: `FB[|FB|-2]` and `FB[|FB|-1]`, where both exist (R72). -/
def lastTwo (fb : List Period) : Option (Period × Period) :=
  match fb[fb.length - 2]?, fb[fb.length - 1]? with
  | some a, some b => if 2 ≤ fb.length then some (a, b) else none
  | _, _ => none

/-- The symbol at an index as a bit; past the end of `WF` there is no symbol, and the window word's bit, which has
no value (R87), stands as 0: `decodeWindow` never looks at it. -/
def symbolBit (wf : List Symbol) (i : Nat) : Bool :=
  match wf[i]? with
  | some x => x.bit
  | none => false

/-- The window word at the cursor: `w[7] = WF[POS]` down to `w[0] = WF[POS+7]` (R87). -/
def windowWord (wf : List Symbol) (pos : Nat) : WindowWord :=
  BitVec.ofBool (symbolBit wf pos) ++ BitVec.ofBool (symbolBit wf (pos + 1)) ++
  BitVec.ofBool (symbolBit wf (pos + 2)) ++ BitVec.ofBool (symbolBit wf (pos + 3)) ++
  BitVec.ofBool (symbolBit wf (pos + 4)) ++ BitVec.ofBool (symbolBit wf (pos + 5)) ++
  BitVec.ofBool (symbolBit wf (pos + 6)) ++ BitVec.ofBool (symbolBit wf (pos + 7))

/-- `avail = min(8, |WF| - POS)`, 0 where the cursor is at or past the end (R87). -/
def windowAvail (wf : List Symbol) (pos : Nat) : Nat := min 8 (wf.length - pos)

/-- `bin(s)`: a bit string as a number, first bit most significant (R10). -/
def bin (s : List Bool) : Nat := s.foldl (fun n b => 2 * n + b.toNat) 0

/-- The checked message: the preamble and up to the first `cap` bytes of the record (R100). -/
def checkedMessage (cap : Nat) (buf : List Byte) : List Byte := preamble :: buf.take cap

end Sys2Proof.Machine
end

