-- ==== Sys2Proof/Config.lean ====
section
/-! DEFINITION. What an implementation fixes: the one open parameter `FRAME_CAP` (00_scope.md R8), and the largest
clock period. -/

namespace Sys2Proof

/-- `FRAME_CAP` as it is configured: a number of clock periods, or `none` for `INF`, no bound (R8). -/
abbrev FrameCap := Option Nat

/-- The value of `FRAME_CAP` in the state after reset: `INF`, with which "the block is exactly the source's" (R8).
DESIGN CHOICE, unsafe, log entry 1: the spec leaves the parameter open. `FRAME_CAP` is a field of State, so
that every statement about all states holds for every value of it; nothing rests on this one. -/
def Config.frameCapAtReset : FrameCap := none

/-- `PERIOD_MAX`: the largest clock period that a sample quantizes to (R7, R84). -/
def periodMax : Nat := 20

end Sys2Proof
end

