-- ==== Sys2Proof/Machine/State.lean ====
section
/-! DEFINITION. The state of the block (10_state.md), the reasons for which a step stops, and the state after reset.
The persistent elements are `PHASE`, `FAULT` and `FB` (R20); the working registers P, F, WF, POS, BITS, BUF, ACC and
EV live inside one step and are dead between steps (R25). -/

namespace Sys2Proof.Machine

/-- `PHASE` (R22). -/
inductive Phase where
  /-- 0: the stream is open. -/
  | run
  /-- 1: an `EOS` has been executed, the stream is over. -/
  | done
deriving DecidableEq, Repr

/-- The sticky fault code `FAULT` (R23, R255). -/
inductive FaultCode where
  /-- 0. -/
  | none
  /-- 1: a `SAMPLE` found the frame buffer full. -/
  | frameOverflow
deriving DecidableEq, Repr

/-- The `tag` field of a record event (R98). -/
inductive RecTag where
  /-- 0, printed `DM`. -/
  | dm
  /-- 1, printed `AM`. -/
  | am
  /-- 2, printed `??`. -/
  | unk
deriving DecidableEq, Repr

/-- The fields of a record event but its constant `kind` (R98). -/
structure RecordFields where
  tag : RecTag
  byteLen : Nat
  checkDigits : Nat
  check : Check
  payload : List Byte
deriving DecidableEq, Repr

/-- An event of the output (R96). -/
inductive Event where
  /-- `DIAG`, kind 4 (R97). -/
  | diag (wfLen : Nat)
  /-- `REC`, kind 6 (R98). -/
  | record (r : RecordFields)
deriving DecidableEq, Repr

/-- The names of the working registers (R26 to R33). -/
inductive WorkReg where
  | p | f | wf | pos | bits | buf | acc | ev
deriving DecidableEq, Repr

/-- The working registers (R25 to R33). `none` is the spec's own value "dead (no value)" (R39): a register is dead
until the step writes it, and again when the step ends. -/
structure Work where
  /-- `P`, the period just quantized (R26). -/
  p : Option Period
  /-- `F`, the frame being processed (R27). -/
  f : Option (List Period)
  /-- `WF`, the rendered waveform (R28). -/
  wf : Option (List Symbol)
  /-- `POS`, the decode cursor (R29). -/
  pos : Option Nat
  /-- `BITS`, the decoded bits (R30). -/
  bits : Option (List Bool)
  /-- `BUF`, the assembled record (R31). -/
  buf : Option (List Byte)
  /-- `ACC`, the check-value accumulator (R32). -/
  acc : Option Acc
  /-- `EV`, the event list of the current step (R33). -/
  ev : Option (List Event)
deriving DecidableEq, Repr

/-- All working registers dead, as between steps (R25, R39). -/
def Work.dead : Work := ⟨none, none, none, none, none, none, none, none⟩

/-- The state of the block. -/
structure State where
  /-- `PHASE` (R22). -/
  phase : Phase
  /-- `FAULT` (R23). -/
  fault : FaultCode
  /-- `FB`, the frame buffer, oldest period first (R24). -/
  fb : List Period
  /-- `FRAME_CAP`, the open parameter of the step function (R8, R21). It stands here so that the step has it as an
  argument; no operation writes it (log entry 1). -/
  frameCap : FrameCap
  /-- The working registers (R25). -/
  work : Work
  /-- The model's own: the HOSTOP words that the host puts on the input port, next first (R50, R81; log entry 3). -/
  input : List HostWord
  /-- The model's own: the event output, every event emitted so far in order (R15, R96; log entry 4). -/
  out : List Event
deriving DecidableEq, Repr

/-- Why a step stops with a fault. The block's own fault `FRAME_OVERFLOW` is none of these: it is recorded in `FAULT`
and the block goes on (R13, R256). -/
inductive Fault where
  /-- An operation read a working register that is dead. R25: "a read before the write is a modelling error (fault),
  not zero". Raised by every read of a working register (`withLive`). Safe: no host operation raises it. -/
  | deadRegister (r : WorkReg)
deriving DecidableEq, Repr

/-- Why a step is refused. -/
inductive Refusal where
  /-- The instruction has no meaning in the model yet. Raised by `exec` only, on an arm that has none. Safe. -/
  | notModelled (mnemonic : String)
  /-- `SAMPLE` or `EOS` where `PHASE = DONE` or `FAULT` is set (R121, R257): "a refused operation has no meaning".
  Raised by `SAMPLE`, `EOS` and the pseudo-operations that expand to `SAMPLE`. Safe. -/
  | refusedInState (phase : Phase) (fault : FaultCode)
  /-- A `PERIOD` whose operand is above 20, which the syntax of R112 does not have. Raised by `PERIOD` and
  `PERIODS`. Safe. -/
  | operandOutOfRange (n : Period)
deriving DecidableEq, Repr

/-- The state after `RESET` and at power-up (R39, R280, R281), with nothing yet on the input port and no event
emitted. `FRAME_CAP` is "the configured value" (log entry 1). -/
def State.reset : State :=
  { phase := .run
    fault := .none
    fb := []
    frameCap := Config.frameCapAtReset
    work := Work.dead
    input := []
    out := [] }

end Sys2Proof.Machine
end

