-- ==== Sys2Proof/Machine/Ops.lean ====
section
/-! DEFINITION. The shared operations on the state: the named updates, the reads of the working registers, the
sequencing of operations, the beginning and the end of a step, the fault entry and the reset. -/

namespace Sys2Proof.Machine

/-- The outcome of an operation of this machine. -/
abbrev Result := Host.Outcome State Fault Refusal

/-! ## Named updates -/

/-- `PHASE <- x`. -/
def State.setPhase (s : State) (x : Phase) : State := { s with phase := x }
/-- `FAULT <- x`. -/
def State.setFault (s : State) (x : FaultCode) : State := { s with fault := x }
/-- `FB <- x`. -/
def State.setFb (s : State) (x : List Period) : State := { s with fb := x }
/-- The working registers as a whole. -/
def State.setWork (s : State) (x : Work) : State := { s with work := x }
/-- What the host has put on the input port. -/
def State.setInput (s : State) (x : List HostWord) : State := { s with input := x }
/-- The event output. -/
def State.setOut (s : State) (x : List Event) : State := { s with out := x }

/-- `P <- x`. -/
def State.setP (s : State) (x : Period) : State := s.setWork { s.work with p := some x }
/-- `F <- x`. -/
def State.setF (s : State) (x : List Period) : State := s.setWork { s.work with f := some x }
/-- `WF <- x`. -/
def State.setWf (s : State) (x : List Symbol) : State := s.setWork { s.work with wf := some x }
/-- `POS <- x; BITS <- y`. -/
def State.setCursor (s : State) (x : Nat) (y : List Bool) : State :=
  s.setWork { s.work with pos := some x, bits := some y }
/-- `BUF <- x`. -/
def State.setBuf (s : State) (x : List Byte) : State := s.setWork { s.work with buf := some x }
/-- `ACC <- x`. -/
def State.setAcc (s : State) (x : Acc) : State := s.setWork { s.work with acc := some x }
/-- `EV <- x`. -/
def State.setEv (s : State) (x : List Event) : State := s.setWork { s.work with ev := some x }

/-! ## Sequencing -/

/-- One operation and, where it gives a next state, another. -/
def andThen (o : Result) (k : State → Result) : Result :=
  match o with
  | .next s => k s
  | .fault r => .fault r
  | .refused r => .refused r

/-- Read a working register; reading a dead one is a fault, never zero (R25). -/
def withLive {α : Type} (v : Option α) (r : WorkReg) (k : α → Result) : Result :=
  match v with
  | some a => k a
  | none => .fault (.deadRegister r)

/-! ## Events and the span of a step -/

/-- `emit e`: append e to the event list of the current step (R12, R33). -/
def emit (e : Event) (s : State) : Result :=
  withLive s.work.ev .ev fun ev => .next (s.setEv (ev ++ [e]))

/-- The step of a host operation begins: EV starts empty and every other working register is dead (R25, R33). -/
def beginOp (s : State) : State := s.setWork { Work.dead with ev := some [] }

/-- The step ends: its events leave by the event output, in order, and the working registers die (R25, R33, R67). -/
def endOp (s : State) : Result :=
  withLive s.work.ev .ev fun ev => .next ((s.setOut (s.out ++ ev)).setWork Work.dead)

/-! ## The fault and the way out of it -/

/-- `raise Fault(c)`: the code is recorded in the sticky `FAULT`, nothing else is written, the step ends and emits
nothing further (R12, R256, R260). There is no handler, no vector and no saved state. -/
def raiseFault (c : FaultCode) (s : State) : Result := endOp (s.setFault c)

/-- `PHASE <- RUN; FAULT <- NONE; FB <- []`: the only way out of the faulted state and out of `DONE` (R125, R261). -/
def restoreReset (s : State) : State := ((s.setPhase .run).setFault .none).setFb []

end Sys2Proof.Machine
end

