-- ==== Sys2Proof/Machine/Assembler.lean ====
section
/-! DEFINITION. The Byte Assembler (45_byte_assembler.md). -/

namespace Sys2Proof.Machine

/-- `Assemble(BITS)`: drop the synchronization bit, then one byte for each complete group of 8 bits, most significant
bit first; a shorter tail is discarded (R201). -/
def assembleBits (bits : List Bool) : List Byte :=
  let m := bits.drop 1
  (List.range (m.length / 8)).map fun k => BitVec.ofNat 8 (bin (slice m (8 * k) (8 * k + 8)))

/-- `BUF <- Assemble(BITS)` (R126). -/
def assembleOp (s : State) : Result := withLive s.work.bits .bits fun bits => .next (s.setBuf (assembleBits bits))

/-- `ASSEMBLE` (R201). -/
def execAssemble (s : State) : Result := assembleOp s

end Sys2Proof.Machine
end

