-- ==== Sys2Proof/Syntax.lean ====
section
/-! DEFINITION. The operations of the block, one constructor for each row of spec/opcode_table.json. "Instruction"
is read as 00_scope.md R6 says: host operations, the sync pair, the code words, the record classes; the table adds the
pseudo-operations (R112) and the unencoded pipeline functions. -/

namespace Sys2Proof

/-- An operation of the block. -/
inductive Instr where
  /-- `NOP` (R122). -/
  | nop
  /-- `SAMPLE b`: one interval sample enters the pipeline (R123). -/
  | sample (b : Byte)
  /-- `EOS`: end of stream (R124). -/
  | eos
  /-- `RESET` (R125). -/
  | reset
  /-- `PERIOD n`: `SAMPLE CANON[n]`, for n = 0 to 20 (R112). -/
  | period (n : Period)
  /-- `PERIODS n1 … nk`: `PERIOD n1`, …, `PERIOD nk` (R112). -/
  | periods (ns : List Period)
  /-- The pseudo-operation `SYNC`: `PERIOD 8`, `PERIOD 3` (R112). -/
  | sync
  /-- `FRAMER.SYNC`: sync detection and frame emission, the FRAMESYM value `SYNC` (R85, R152). -/
  | framerSync
  /-- `RLL.10` (R178). -/
  | rll10
  /-- `RLL.11` (R179). -/
  | rll11
  /-- `RLL.000` (R180). -/
  | rll000
  /-- `RLL.010` (R181). -/
  | rll010
  /-- `RLL.011` (R182). -/
  | rll011
  /-- `RLL.0010` (R183). -/
  | rll0010
  /-- `RLL.0011` (R184). -/
  | rll0011
  /-- `RLL.STOP` (R185). -/
  | rllStop
  /-- `REC.NONE` (R211). -/
  | recNone
  /-- `REC.DM`, Data Mark (R212). -/
  | recDm
  /-- `REC.AM`, Address Mark (R213). -/
  | recAm
  /-- `REC.UNK`, Unknown (R214). -/
  | recUnk
  /-- `Q`: the Quantizer on sample b (R140, R141). -/
  | q (b : Byte)
  /-- `FRAMER.APPEND` (R151). -/
  | framerAppend
  /-- `FRAMER.FLUSH`: the final flush (R154). -/
  | framerFlush
  /-- `RENDER` (R166). -/
  | render
  /-- `RLLDECODE` (R186). -/
  | rllDecode
  /-- `ASSEMBLE` (R201). -/
  | assemble
  /-- `CLASSIFY` (R210). -/
  | classify
  /-- `CRC16` of a message (R234). -/
  | crc16 (msg : List Byte)
  /-- `CRC56` of a message (R235). -/
  | crc56 (msg : List Byte)
  /-- `PROCESSFRAME` (R126). -/
  | processFrame
deriving DecidableEq, Repr

/-- The format of a row of the opcode table: where in the pipeline its encoding is read (R80). -/
inductive Format where
  /-- The 10-bit word of the input port (R81). -/
  | hostop
  /-- A pseudo-operation: a name for one or more HOSTOP words (R112). -/
  | pseudo
  /-- The last two periods of `FB`, a 10-bit pair (R85). -/
  | framesym
  /-- The window of up to 8 symbols at `POS` (R87). -/
  | rllcode
  /-- The tag byte `BUF[0]`, or its absence (R95). -/
  | rectag
  /-- No encoding: a pipeline function that the step of a host operation invokes. -/
  | internal
deriving DecidableEq, Repr

/-- The format column of the opcode table. -/
def Instr.format : Instr → Format
  | .nop | .sample _ | .eos | .reset => .hostop
  | .period _ | .periods _ | .sync => .pseudo
  | .framerSync => .framesym
  | .rll10 | .rll11 | .rll000 | .rll010 | .rll011 | .rll0010 | .rll0011 | .rllStop => .rllcode
  | .recNone | .recDm | .recAm | .recUnk => .rectag
  | .q _ | .framerAppend | .framerFlush | .render | .rllDecode | .assemble | .classify
  | .crc16 _ | .crc56 _ | .processFrame => .internal

end Sys2Proof
end

