-- ==== Sys2Proof/WellFormed.lean ====
section
/-! DEFINITION. Which operations the spec's syntax admits. The only operands with a range narrower than their type are
the periods of the pseudo-operations, 0 to 20 (30_encoding.md R112). -/

namespace Sys2Proof

/-- A period that a sample can produce: 0 to 20 (R84). -/
def periodOk (n : Period) : Bool := decide (n.toNat ≤ periodMax)

/-- The operation is one that the spec's syntax admits: the operands of `PERIOD` and `PERIODS` are 0 to 20
(R112). Every byte is a sample (R83) and every byte sequence a message (R231). -/
def Instr.wf : Instr → Bool
  | .period n => periodOk n
  | .periods ns => ns.all periodOk
  | .nop | .sample _ | .eos | .reset | .sync | .framerSync => true
  | .rll10 | .rll11 | .rll000 | .rll010 | .rll011 | .rll0010 | .rll0011 | .rllStop => true
  | .recNone | .recDm | .recAm | .recUnk => true
  | .q _ | .framerAppend | .framerFlush | .render | .rllDecode | .assemble | .classify
  | .crc16 _ | .crc56 _ | .processFrame => true

end Sys2Proof
end

