-- ==== Sys2Proof/Decode.lean ====
section
/-! DEFINITION. Formats, the decoders and the encoder (30_encoding.md). The block has no instruction memory: an
encoding is told by the place where it stands (the input port, the last two periods of `FB`, the window at `POS`,
the tag byte), and each place has its own total decoder. -/

namespace Sys2Proof

/-! ## The code table -/

/-- A row of `CODE_ROM` (R55, R90): the pattern from the cursor, the bits emitted, and the match and mask columns. -/
structure CodeRow where
  instr : Instr
  pattern : List Symbol
  bits : List Bool
  value : WindowWord
  mask : WindowWord
deriving DecidableEq, Repr

/-- The symbols a code word consumes (R90, column "length consumed"). -/
def CodeRow.len (r : CodeRow) : Nat := r.pattern.length

/-- A pattern written as the spec writes it as bits, filler 0 and separator 1 (R11, R90). -/
def pat (bits : List Nat) : List Symbol := bits.map fun n => Symbol.ofBit (n == 1)

/-- A bit group, first bit emitted first (R59, R90). -/
def grp (bits : List Nat) : List Bool := bits.map (· == 1)

/-- `RLL.10`: `-|--` (R90 row 1). -/
def row10 : CodeRow := ⟨.rll10, pat [0, 1, 0, 0], grp [1, 0], 0x40, 0xF0⟩
/-- `RLL.11`: `|---` (R90 row 2). -/
def row11 : CodeRow := ⟨.rll11, pat [1, 0, 0, 0], grp [1, 1], 0x80, 0xF0⟩
/-- `RLL.000`: `|--|--` (R90 row 3). -/
def row000 : CodeRow := ⟨.rll000, pat [1, 0, 0, 1, 0, 0], grp [0, 0, 0], 0x90, 0xFC⟩
/-- `RLL.010`: `---|--` (R90 row 4). -/
def row010 : CodeRow := ⟨.rll010, pat [0, 0, 0, 1, 0, 0], grp [0, 1, 0], 0x10, 0xFC⟩
/-- `RLL.011`: `--|---` (R90 row 5). -/
def row011 : CodeRow := ⟨.rll011, pat [0, 0, 1, 0, 0, 0], grp [0, 1, 1], 0x20, 0xFC⟩
/-- `RLL.0010`: `--|--|--` (R90 row 6). -/
def row0010 : CodeRow := ⟨.rll0010, pat [0, 0, 1, 0, 0, 1, 0, 0], grp [0, 0, 1, 0], 0x24, 0xFF⟩
/-- `RLL.0011`: `----|---` (R90 row 7). -/
def row0011 : CodeRow := ⟨.rll0011, pat [0, 0, 0, 0, 1, 0, 0, 0], grp [0, 0, 1, 1], 0x08, 0xFF⟩

/-- `CODE_ROM`, in the source's order (R90). -/
def codeRom : List CodeRow := [row10, row11, row000, row010, row011, row0010, row0011]

/-! ## The other constants of the formats -/

/-- `SYNC0`, the first period of the sync pair (R7). -/
def syncFirst : Period := 8
/-- `SYNC1`, the second period of the sync pair (R7). -/
def syncSecond : Period := 3
/-- `TAG_DM`, the Data-Mark first byte (R7). -/
def tagDm : Byte := 0xF8

/-- `CANON[0]` to `CANON[20]` (R112). -/
def canonTable : List Byte :=
  [0x00, 0x07, 0x14, 0x21, 0x2F, 0x3C, 0x49, 0x57, 0x64, 0x71, 0x7F] ++
  [0x8C, 0x99, 0xA7, 0xB4, 0xC1, 0xCF, 0xDC, 0xE9, 0xF7, 0xFF]

/-- `CANON[n]`: the fixed sample byte that quantizes to n, for n = 0 to 20 (R112). -/
def canon (n : Period) : Option Byte := canonTable[n.toNat]?

/-! ## The decoders, one for each place -/

/-- The `op` field of a HOSTOP word, bits 9:8 (R81). -/
def hostOpCode (w : HostWord) : BitVec 2 := w.extractLsb' 8 2

/-- The `data` field of a HOSTOP word, bits 7:0 (R81). -/
def hostData (w : HostWord) : Byte := w.extractLsb' 0 8

/-- A word of the input port (R82). Total: all four codes are defined, and `data` is ignored but by `SAMPLE`. -/
def decodeHostOp (w : HostWord) : Instr :=
  if hostOpCode w = 0 then .nop
  else if hostOpCode w = 1 then .sample (hostData w)
  else if hostOpCode w = 2 then .eos
  else .reset

/-- The last two periods as the 10-bit pair `(prev[9:5], cur[4:0])` (R85). -/
def framePair (prev cur : Period) : BitVec 10 := prev ++ cur

/-- The pair `SYNC`: `(8 << 5) | 3 = 0x103` (R85). -/
def syncPair : BitVec 10 := 0x103

/-- The pair of the last two periods (R85): `FRAMER.SYNC`, or `none` for "no sync, keep accumulating". -/
def decodePair (w : BitVec 10) : Option Instr := if w = syncPair then some .framerSync else none

/-- A row of the code table matches the window `w` of which `avail` symbols exist (R88). -/
def CodeRow.fits (r : CodeRow) (w : WindowWord) (avail : Nat) : Bool :=
  decide (r.len ≤ avail) && (w &&& r.mask == r.value)

/-- The window at the cursor (R87 to R91). Total: a window that no row matches is `RLL.STOP`. -/
def decodeWindow (w : WindowWord) (avail : Nat) : Instr :=
  match codeRom.find? (·.fits w avail) with
  | some r => r.instr
  | none => .rllStop

/-- The tag byte, or `none` where the record has no byte (R95, R210). Total, compared unsigned. -/
def decodeTag : Option Byte → Instr
  | none => .recNone
  | some t => if t = tagDm then .recDm else if tagDm < t then .recAm else .recUnk

/-! ## One decoder over all encoded forms -/

/-- An encoding together with the place where it stands. -/
inductive Encoded where
  /-- A word on the input port. -/
  | hostop (w : HostWord)
  /-- The last two periods of `FB`. -/
  | framesym (w : BitVec 10)
  /-- The window at `POS`, of which `avail` symbols exist. -/
  | window (w : WindowWord) (avail : Nat)
  /-- The first byte of the record, if it has one. -/
  | tag (t : Option Byte)
deriving DecidableEq, Repr

/-- The format an encoding belongs to. -/
def Encoded.format : Encoded → Format
  | .hostop _ => .hostop
  | .framesym _ => .framesym
  | .window _ _ => .rllcode
  | .tag _ => .rectag

/-- Why a decoding answers no operation. -/
inductive DecodeReject where
  /-- A pair of periods that is not the sync pair: no operation, the period stays in `FB` (R85). Raised by `decode`.
  Safe: it stops nothing, it says that no frame is cut. -/
  | noSync
  /-- No row of the opcode table has an encoding of so many bits. Raised by `decodeTable`. Safe. -/
  | noSuchWidth (nbits : Nat)
  /-- A bit is set above the width of the format. Raised by `decodeTable`. Safe. -/
  | bitAboveFormat (nbits : Nat)
deriving DecidableEq, Repr

/-- The operation that an encoding stands for; total. Only a pair of periods can stand for none. -/
def decode : Encoded → Except DecodeReject Instr
  | .hostop w => .ok (decodeHostOp w)
  | .framesym w => match decodePair w with
    | some i => .ok i
    | none => .error .noSync
  | .window w avail => .ok (decodeWindow w avail)
  | .tag t => .ok (decodeTag t)

/-- Where an 8-bit encoding of the opcode table stands. The rows are read as one list in the table's order: a word
that a code word matches as a full window is a window; any other is a tag byte (log entry 2). -/
def placeByte (b : BitVec 8) : Encoded :=
  match decodeWindow b 8 with
  | .rllStop => .tag (some b)
  | _ => .window b 8

/-- Where an encoding of the opcode table stands, given the table's width in whole bytes: 8 bits a window or a
tag, 16 bits (10 used) a HOSTOP word, 24 bits (20 used) two HOSTOP words, the first in the low bits. -/
def placeTable (nbits w : Nat) : Except DecodeReject (List Encoded) :=
  if nbits = 8 then
    if w < 2 ^ 8 then .ok [placeByte (BitVec.ofNat 8 w)] else .error (.bitAboveFormat nbits)
  else if nbits = 16 then
    if w < 2 ^ 10 then .ok [.hostop (BitVec.ofNat 10 w)] else .error (.bitAboveFormat nbits)
  else if nbits = 24 then
    if w < 2 ^ 20 then .ok [.hostop (BitVec.ofNat 10 w), .hostop (BitVec.ofNat 10 (w / 2 ^ 10))]
    else .error (.bitAboveFormat nbits)
  else .error (.noSuchWidth nbits)

/-- The operation that the decoder reads from an encoding of the opcode table: that of its first word. -/
def decodeTable (nbits w : Nat) : Except DecodeReject Instr :=
  match placeTable nbits w with
  | .ok (e :: _) => decode e
  | .ok [] => .error (.noSuchWidth nbits)
  | .error r => .error r

/-- The operation that the decoder reads from the bits of an encoding, numbered as spec/opcode_table.json numbers
them; `none` where it refuses. -/
def decodeTableWord (nbits w : Nat) : Option Instr :=
  match decodeTable nbits w with
  | .ok i => some i
  | .error _ => none

/-! ## The encoder -/

/-- A HOSTOP word of its two fields (R81). -/
def hostWord (op : BitVec 2) (data : Byte) : HostWord := op ++ data

/-- The HOSTOP word of `SAMPLE b` (R82). -/
def sampleWord (b : Byte) : HostWord := hostWord 1 b

/-- The HOSTOP word of `PERIOD n`, if n is 0 to 20 (R112). -/
def periodWord (n : Period) : Option HostWord := (canon n).map sampleWord

/-- The window of a code word: its fixed bits, and `u` in the bits that the table marks "not examined" (R90). -/
def CodeRow.window (r : CodeRow) (u : Byte) : Encoded := .window (r.value ||| (u &&& ~~~r.mask)) r.len

/-- The tag of an Address Mark whose low three bits are those of `u`; 000 is not among them and gives 001 (R95). -/
def addressTag (u : Byte) : Byte := if u &&& 7 = 0 then 0xF9 else 0xF8 ||| (u &&& 7)

/-- The tag of an Unknown record: `u`, or the highest Unknown tag where `u` is a mark's (R95). -/
def unknownTag (u : Byte) : Byte := if u < tagDm then u else 0xF7

/-- The encodings of an operation, in order, `u` filling the bits that the encoding leaves free: the ignored `data`
field, the unexamined symbols of a window, the tag bits within a class. A pipeline function has none. A
pseudo-operation is the HOSTOP words it expands to (R112), and none where an operand is out of range. -/
def encodeWith (u : Byte) : Instr → List Encoded
  | .nop => [.hostop (hostWord 0 u)]
  | .sample b => [.hostop (sampleWord b)]
  | .eos => [.hostop (hostWord 2 u)]
  | .reset => [.hostop (hostWord 3 u)]
  | .period n => (periodWord n).toList.map .hostop
  | .periods ns => ((ns.mapM periodWord).getD []).map .hostop
  | .sync => [.hostop (sampleWord 0x64), .hostop (sampleWord 0x21)]
  | .framerSync => [.framesym syncPair]
  | .rll10 => [row10.window u]
  | .rll11 => [row11.window u]
  | .rll000 => [row000.window u]
  | .rll010 => [row010.window u]
  | .rll011 => [row011.window u]
  | .rll0010 => [row0010.window u]
  | .rll0011 => [row0011.window u]
  | .rllStop => [.window u 0]
  | .recNone => [.tag none]
  | .recDm => [.tag (some tagDm)]
  | .recAm => [.tag (some (addressTag u))]
  | .recUnk => [.tag (some (unknownTag u))]
  | .q _ | .framerAppend | .framerFlush | .render | .rllDecode | .assemble | .classify
  | .crc16 _ | .crc56 _ | .processFrame => []

/-- The canonical encodings: every free bit 0 (D31). -/
def encode (i : Instr) : List Encoded := encodeWith 0 i

/-- The core operations that an operation's encodings stand for: a pseudo-operation is its expansion (R112), any
other encoded operation is itself, and a pipeline function has none. -/
def expansion : Instr → List Instr
  | .period n => (canon n).toList.map .sample
  | .periods ns => ((ns.mapM canon).getD []).map .sample
  | .sync => [.sample 0x64, .sample 0x21]
  | .q _ | .framerAppend | .framerFlush | .render | .rllDecode | .assemble | .classify
  | .crc16 _ | .crc56 _ | .processFrame => []
  | .nop => [.nop]
  | .sample b => [.sample b]
  | .eos => [.eos]
  | .reset => [.reset]
  | .framerSync => [.framerSync]
  | .rll10 => [.rll10]
  | .rll11 => [.rll11]
  | .rll000 => [.rll000]
  | .rll010 => [.rll010]
  | .rll011 => [.rll011]
  | .rll0010 => [.rll0010]
  | .rll0011 => [.rll0011]
  | .rllStop => [.rllStop]
  | .recNone => [.recNone]
  | .recDm => [.recDm]
  | .recAm => [.recAm]
  | .recUnk => [.recUnk]

end Sys2Proof
end

