-- ==== Sys2Proof/Machine/Flags.lean ====
section
/-! DEFINITION. The status register and the predicates that the rules test (10_state.md R34, R36). The block has no
flag register: nothing here is stored but `PHASE` and `FAULT`. -/

namespace Sys2Proof.Machine

/-- `PHASE` as a bit: `RUN` 0, `DONE` 1 (R22). -/
def Phase.code : Phase → Bool
  | .run => false
  | .done => true

/-- `FAULT` as its cause code: `NONE` 0, `FRAME_OVERFLOW` 1 (R255). -/
def FaultCode.code : FaultCode → Bool
  | .none => false
  | .frameOverflow => true

/-- The record class as its number: `DM` 0, `AM` 1, `UNK` 2 (R98). -/
def RecTag.code : RecTag → Nat
  | .dm => 0
  | .am => 1
  | .unk => 2

/-- The `kind` field of an event (R96, R97, R98). -/
def Event.kind : Event → Nat
  | .diag _ => kindDiag
  | .record _ => kindRec

/-- The read-only status register: `STATUS[0] = PHASE`, `STATUS[1] = FAULT` (R36). -/
def State.status (s : State) : BitVec 2 := BitVec.ofBool s.fault.code ++ BitVec.ofBool s.phase.code

/-- `SAMPLE` and `EOS` are accepted (R121). -/
def State.accepting (s : State) : Bool := s.phase == .run && s.fault == .none

/-- `FULL`: the buffer holds `FRAME_CAP` periods; never with `INF` (R34). -/
def State.full (s : State) : Bool := s.frameCap == some s.fb.length

/-- `SYNC_HIT`: the buffer's last two periods are 8 and 3 (R34, R152). -/
def syncHit (fb : List Period) : Bool :=
  match lastTwo fb with
  | some (a, b) => a == syncFirst && b == syncSecond
  | none => false

/-- `MATCH_k`: `MemRead(WF, POS, len_k) = pattern_k` (R34, R177). -/
def matchRow (r : CodeRow) (wf : List Symbol) (pos : Nat) : Bool :=
  memRead wf pos r.len == some r.pattern

/-- `NO_MATCH`: none of `MATCH_1` to `MATCH_7` holds (R34, R185). -/
def noMatch (wf : List Symbol) (pos : Nat) : Bool := codeRom.all fun r => !matchRow r wf pos

/-- `EMPTY`: the record has no byte (R34, R211). -/
def recordEmpty (buf : List Byte) : Bool := buf.isEmpty

/-- `TAG_EQ`: `BUF[0] = 0xF8` (R34, R212). -/
def tagEq (buf : List Byte) : Bool :=
  match buf.head? with
  | some t => t == tagDm
  | none => false

/-- `TAG_GT`: `BUF[0] > 0xF8`, unsigned (R34, R213). -/
def tagGt (buf : List Byte) : Bool :=
  match buf.head? with
  | some t => decide (tagDm < t)
  | none => false

/-- `CARRY`: bit N of the accumulator after the left shift (R34, R231). -/
def carry (e : Engine) (acc : Acc) : Bool := acc.getLsbD e.n

end Sys2Proof.Machine
end

