-- ==== Sys2Proof/Machine/Engines.lean ====
section
/-! DEFINITION. The two check-value engines (47_crc_engines.md): one bit-serial algorithm with two sets of parameters. -/

namespace Sys2Proof.Machine

/-- One of the eight iterations for a byte: shift left by 1; if bit N is then set, exclusive-OR the polynomial (R231). -/
def crcBit (e : Engine) (acc : Acc) : Acc :=
  let a := acc <<< 1
  if carry e a then a ^^^ e.poly else a

/-- The iterations, `k` of them (R231). -/
def crcBits (e : Engine) : Nat → Acc → Acc
  | 0, acc => acc
  | k + 1, acc => crcBits e k (crcBit e acc)

/-- One byte: exclusive-OR it into the top byte of the register, bits N-1 to N-8, then eight iterations (R231, R232). -/
def crcByte (e : Engine) (acc : Acc) (b : Byte) : Acc :=
  crcBits e 8 (acc ^^^ (b.setWidth 57 <<< (e.n - 8)))

/-- `Crc` from a given register value, over the message in index order (R231). -/
def crcFrom (e : Engine) (acc : Acc) (msg : List Byte) : Acc := msg.foldl (crcByte e) acc

/-- `Crc(N, POLY, INIT, msg)` (R231). -/
def crc (e : Engine) (msg : List Byte) : Acc := crcFrom e e.init msg

/-- `ACC <- Crc(N, POLY, INIT, msg)`: nothing else is kept (R230). -/
def engineOp (e : Engine) (msg : List Byte) (s : State) : Result := .next (s.setAcc (crc e msg))

/-- `CRC16` (R234). -/
def execCrc16 (msg : List Byte) (s : State) : Result := engineOp engine16 msg s

/-- `CRC56` (R235). -/
def execCrc56 (msg : List Byte) (s : State) : Result := engineOp engine56 msg s

end Sys2Proof.Machine
end

