-- ==== Sys2Proof/Machine/Classifier.lean ====
section
/-! DEFINITION. The Classifier and Verifier (46_classifier.md). It computes check values and judges none (R217). -/

namespace Sys2Proof.Machine

/-- Emit the record event of a class: `byte_len` counts the whole record, the payload is `take(CAP, BUF)` (R98, R215). -/
def emitRecord (tag : RecTag) (cap digits : Nat) (check : Check) (buf : List Byte) (s : State) : Result :=
  emit (.record ⟨tag, buf.length, digits, check, buf.take cap⟩) s

/-- A class that computes a check value: run the engine over the checked message, then emit the record with the
accumulator zero-extended or cut to the 56 bits of the field (R212, R213). -/
def checkedRecordOp (e : Engine) (tag : RecTag) (cap digits : Nat) (buf : List Byte) (s : State) : Result :=
  andThen (engineOp e (checkedMessage cap buf) s) fun t =>
  withLive t.work.acc .acc fun acc =>
  emitRecord tag cap digits (acc.setWidth 56) buf t

/-- `REC.NONE`: no event (R211). -/
def recNoneOp (s : State) : Result := withLive s.work.buf .buf fun _ => .next s

/-- `REC.DM` on a record whose tag is 0xF8; a record of another class does not select it (R212, log entry 5). -/
def recDmOp (s : State) : Result :=
  withLive s.work.buf .buf fun buf =>
  if tagEq buf then checkedRecordOp engine56 .dm capDm 14 buf s else .next s

/-- `REC.AM` on a record whose tag is above 0xF8 (R213, log entry 5). -/
def recAmOp (s : State) : Result :=
  withLive s.work.buf .buf fun buf =>
  if tagGt buf then checkedRecordOp engine16 .am capAm 4 buf s else .next s

/-- `REC.UNK` on a record whose tag is below 0xF8: the sentinel, and no engine runs (R214, log entry 5). -/
def recUnkOp (s : State) : Result :=
  withLive s.work.buf .buf fun buf =>
  if recordEmpty buf || tagEq buf || tagGt buf then .next s else emitRecord .unk capUnk 1 sentinel buf s

/-- `Classify(BUF)`: the tests in their order (R210). -/
def classifyOp (s : State) : Result :=
  withLive s.work.buf .buf fun buf =>
  if recordEmpty buf then recNoneOp s
  else if tagEq buf then recDmOp s
  else if tagGt buf then recAmOp s
  else recUnkOp s

/-- `REC.NONE` (R211). -/
def execRecNone (s : State) : Result := recNoneOp s
/-- `REC.DM` (R212). -/
def execRecDm (s : State) : Result := recDmOp s
/-- `REC.AM` (R213). -/
def execRecAm (s : State) : Result := recAmOp s
/-- `REC.UNK` (R214). -/
def execRecUnk (s : State) : Result := recUnkOp s
/-- `CLASSIFY` (R210). -/
def execClassify (s : State) : Result := classifyOp s

end Sys2Proof.Machine
end

