-- ==== Sys2Proof/Machine/Renderer.lean ====
section
/-! DEFINITION. The Waveform Renderer (43_waveform_renderer.md). -/

namespace Sys2Proof.Machine

/-- The rendering of one period: `max(dt - 1, 0)` fillers and a separator (R86); the period 0 renders like 1 (R167). -/
def renderPeriod (dt : Nat) : List Symbol := List.replicate (dt - 1) .filler ++ [.separator]

/-- `Render` on a sequence of natural numbers: the periods in order and one trailing separator (R166). -/
def renderNats (ps : List Nat) : List Symbol := ps.flatMap renderPeriod ++ [.separator]

/-- `Render(F)` (R166). -/
def renderFrame (f : List Period) : List Symbol := renderNats (f.map BitVec.toNat)

/-- `WF <- Render(F)` (R126). -/
def renderOp (s : State) : Result := withLive s.work.f .f fun f => .next (s.setWf (renderFrame f))

/-- `RENDER` (R166). -/
def execRender (s : State) : Result := renderOp s

end Sys2Proof.Machine
end

