-- ==== Sys2Proof/Machine/RllDecoder.lean ====
section
/-! DEFINITION. The RLL Decoder (44_rll_decoder.md): the per-frame diagnostic, one meaning for each code word, the stop,
and the decode loop. -/

namespace Sys2Proof.Machine

/-- `emit DIAG(kind = 4, wf_len = |WF|)` (R176). -/
def diagOp (s : State) : Result := withLive s.work.wf .wf fun wf => emit (.diag wf.length) s

/-- The meaning that the code words share: where the pattern stands at the cursor, append the bit group and advance
by the consumed length; elsewhere the word has no effect (R177 to R184). -/
def codeWordOp (r : CodeRow) (s : State) : Result :=
  withLive s.work.wf .wf fun wf =>
  withLive s.work.pos .pos fun pos =>
  withLive s.work.bits .bits fun bits =>
  .next (if matchRow r wf pos then s.setCursor (pos + r.len) (bits ++ r.bits) else s)

/-- The stop: the window at the cursor is read; `BITS` and `POS` keep their values (R185). -/
def stopOp (s : State) : Result :=
  withLive s.work.wf .wf fun _ =>
  withLive s.work.pos .pos fun _ =>
  withLive s.work.bits .bits fun _ =>
  .next s

/-- The first row that matches at the cursor, in the order of the table (R177). -/
def matchAt (wf : List Symbol) (pos : Nat) : Option CodeRow := codeRom.find? fun r => matchRow r wf pos

/-- The decode loop from a cursor and the bits so far, bounded by `fuel` turns (R186): the final cursor and bits. -/
def rllLoop : Nat → List Symbol → Nat → List Bool → Nat × List Bool
  | 0, _, pos, bits => (pos, bits)
  | fuel + 1, wf, pos, bits =>
    match matchAt wf pos with
    | some r => rllLoop fuel wf (pos + r.len) (bits ++ r.bits)
    | none => (pos, bits)

/-- `RllDecode(WF)` with the final cursor (R186). Each turn consumes at least four symbols (R187), so a turn for each
symbol is more than the loop can take. -/
def rllDecodeFrom (wf : List Symbol) : Nat × List Bool := rllLoop wf.length wf startOffset []

/-- `BITS <- RllDecode(WF)` (R126, R186). -/
def rllDecodeOp (s : State) : Result :=
  withLive s.work.wf .wf fun wf => .next (s.setCursor (rllDecodeFrom wf).1 (rllDecodeFrom wf).2)

/-- `RLL.10` (R178). -/
def execRll10 (s : State) : Result := codeWordOp row10 s
/-- `RLL.11` (R179). -/
def execRll11 (s : State) : Result := codeWordOp row11 s
/-- `RLL.000` (R180). -/
def execRll000 (s : State) : Result := codeWordOp row000 s
/-- `RLL.010` (R181). -/
def execRll010 (s : State) : Result := codeWordOp row010 s
/-- `RLL.011` (R182). -/
def execRll011 (s : State) : Result := codeWordOp row011 s
/-- `RLL.0010` (R183). -/
def execRll0010 (s : State) : Result := codeWordOp row0010 s
/-- `RLL.0011` (R184). -/
def execRll0011 (s : State) : Result := codeWordOp row0011 s
/-- `RLL.STOP` (R185). -/
def execRllStop (s : State) : Result := stopOp s
/-- `RLLDECODE` (R186). -/
def execRllDecode (s : State) : Result := rllDecodeOp s

end Sys2Proof.Machine
end

