-- ==== Sys2Proof/Machine/Pipeline.lean ====
section
/-! DEFINITION. The per-frame pipeline (40_top_level_ops.md R126). -/

namespace Sys2Proof.Machine

/-- `ProcessFrame(F)`: render, emit the diagnostic before decoding, decode, assemble, classify (R126). -/
def processFrameOp (s : State) : Result :=
  andThen (renderOp s) fun s => andThen (diagOp s) fun s => andThen (rllDecodeOp s) fun s =>
  andThen (assembleOp s) classifyOp

/-- `PROCESSFRAME` (R126). -/
def execProcessFrame (s : State) : Result := processFrameOp s

end Sys2Proof.Machine
end

