-- ==== Sys2Proof/Machine/Framer.lean ====
section
/-! DEFINITION. The Framer (42_framer.md): append, sync detection with emission, final flush. -/

namespace Sys2Proof.Machine

/-- `Append(FB, P)` (R151). The capacity is tested by the enclosing `SAMPLE`, not here. -/
def appendOp (s : State) : Result := withLive s.work.p .p fun p => .next (s.setFb (s.fb ++ [p]))

/-- Hand a frame to `ProcessFrame` and empty the buffer: `F <- f; FB <- []; ProcessFrame(F)` (R152, R154). -/
def emitFrameOp (f : List Period) (s : State) : Result := processFrameOp ((s.setF f).setFb [])

/-- Sync detection and frame emission, on the buffer as it stands after an append (R152); no sync, no effect (R85). -/
def syncOp (s : State) : Result :=
  if syncHit s.fb then emitFrameOp (s.fb.take (s.fb.length - 2)) s else .next s

/-- The final flush: nothing is stripped (R154). -/
def flushOp (s : State) : Result := emitFrameOp s.fb s

/-- `FRAMER.APPEND` (R151). -/
def execFramerAppend (s : State) : Result := appendOp s
/-- `FRAMER.SYNC` (R152). -/
def execFramerSync (s : State) : Result := syncOp s
/-- `FRAMER.FLUSH` (R154). -/
def execFramerFlush (s : State) : Result := flushOp s

end Sys2Proof.Machine
end

