-- ==== Sys2Proof/Machine/Quantizer.lean ====
section
/-! DEFINITION. The Quantizer (41_quantizer.md). -/

namespace Sys2Proof.Machine

/-- `Q(b) = floor((2000 * b + 26665) / 26666)`, the normative integer form (R141). -/
def quantize (b : Byte) : Period := BitVec.ofNat 5 ((2000 * b.toNat + 26665) / 26666)

/-- `ROM_Q`: the 256 entries of the quantizer's table, in the order of the sample byte (R55, R142). -/
def romQ : List Period := (List.range 256).map fun b => quantize (BitVec.ofNat 8 b)

/-- `P <- Q(b)` (R123, R140). -/
def quantizeOp (b : Byte) (s : State) : Result := .next (s.setP (quantize b))

/-- `Q` (R140). -/
def execQ (b : Byte) (s : State) : Result := quantizeOp b s

end Sys2Proof.Machine
end

