-- ==== Sys2Proof/Machine/HostOps.lean ====
section
/-! DEFINITION. The host operations (40_top_level_ops.md R122 to R125) and the pseudo-operations that expand to them
(30_encoding.md R112). Each host operation is one whole step: it begins with EV empty and ends with its events on the
output and the working registers dead. -/

namespace Sys2Proof.Machine

/-- `SAMPLE b` (R123, R259): the acceptance test, the overflow test, quantize and append, the sync test. -/
def sampleOp (b : Byte) (s : State) : Result :=
  if s.accepting then
    if s.full then raiseFault .frameOverflow (beginOp s)
    else
      andThen (quantizeOp b (beginOp s)) fun s => andThen (appendOp s) fun s => andThen (syncOp s) endOp
  else .refused (.refusedInState s.phase s.fault)

/-- `EOS` (R124): the whole buffer is the final frame. -/
def eosOp (s : State) : Result :=
  if s.accepting then andThen (flushOp ((beginOp s).setPhase .done)) endOp
  else .refused (.refusedInState s.phase s.fault)

/-- `PERIOD n`, that is `SAMPLE CANON[n]` (R112). -/
def periodOp (n : Period) (s : State) : Result :=
  match canon n with
  | some b => sampleOp b s
  | none => .refused (.operandOutOfRange n)

/-- `PERIODS n1 … nk`: one host operation after another (R112). -/
def periodsOp : List Period → State → Result
  | [], s => .next s
  | n :: ns, s => andThen (periodOp n s) (periodsOp ns)

/-- `NOP`: `S' = S; EV = []` (R122). -/
def execNop (s : State) : Result := endOp (beginOp s)
/-- `SAMPLE b` (R123). -/
def execSample (b : Byte) (s : State) : Result := sampleOp b s
/-- `EOS` (R124). -/
def execEos (s : State) : Result := eosOp s
/-- `RESET`: accepted in every state; the periods held are discarded without an event (R125). -/
def execReset (s : State) : Result := endOp (beginOp (restoreReset s))
/-- `PERIOD n` (R112). -/
def execPeriod (n : Period) (s : State) : Result := periodOp n s
/-- `PERIODS n1 … nk` (R112). -/
def execPeriods (ns : List Period) (s : State) : Result := periodsOp ns s
/-- The pseudo-operation `SYNC`: `PERIOD 8`, `PERIOD 3` (R112). -/
def execSync (s : State) : Result := andThen (periodOp 8 s) (periodOp 3)

end Sys2Proof.Machine
end

