-- ==== Sys2Proof/Machine/Dispatch.lean ====
section
/-! DEFINITION. One arm for each operation, each one direct call of its meaning. -/

namespace Sys2Proof.Machine

/-- What an operation does. -/
def exec (i : Instr) (s : State) : Host.Outcome State Fault Refusal :=
  match i with
  -- host operations
  | .nop => Sys2Proof.Machine.execNop s
  | .sample b => Sys2Proof.Machine.execSample b s
  | .eos => Sys2Proof.Machine.execEos s
  | .reset => Sys2Proof.Machine.execReset s
  -- pseudo-operations
  | .period n => Sys2Proof.Machine.execPeriod n s
  | .periods ns => Sys2Proof.Machine.execPeriods ns s
  | .sync => Sys2Proof.Machine.execSync s
  -- the sync pair
  | .framerSync => Sys2Proof.Machine.execFramerSync s
  -- code words
  | .rll10 => Sys2Proof.Machine.execRll10 s
  | .rll11 => Sys2Proof.Machine.execRll11 s
  | .rll000 => Sys2Proof.Machine.execRll000 s
  | .rll010 => Sys2Proof.Machine.execRll010 s
  | .rll011 => Sys2Proof.Machine.execRll011 s
  | .rll0010 => Sys2Proof.Machine.execRll0010 s
  | .rll0011 => Sys2Proof.Machine.execRll0011 s
  | .rllStop => Sys2Proof.Machine.execRllStop s
  -- record classes
  | .recNone => Sys2Proof.Machine.execRecNone s
  | .recDm => Sys2Proof.Machine.execRecDm s
  | .recAm => Sys2Proof.Machine.execRecAm s
  | .recUnk => Sys2Proof.Machine.execRecUnk s
  -- pipeline functions
  | .q b => Sys2Proof.Machine.execQ b s
  | .framerAppend => Sys2Proof.Machine.execFramerAppend s
  | .framerFlush => Sys2Proof.Machine.execFramerFlush s
  | .render => Sys2Proof.Machine.execRender s
  | .rllDecode => Sys2Proof.Machine.execRllDecode s
  | .assemble => Sys2Proof.Machine.execAssemble s
  | .classify => Sys2Proof.Machine.execClassify s
  | .crc16 msg => Sys2Proof.Machine.execCrc16 msg s
  | .crc56 msg => Sys2Proof.Machine.execCrc56 msg s
  | .processFrame => Sys2Proof.Machine.execProcessFrame s

end Sys2Proof.Machine
end

