-- ==== Sys2Proof/Machine/Fetch.lean ====
section
/-! DEFINITION. Where the block takes its next operation from, and what the sequencing adds after it. Between steps
that is the input port: one host operation a step, with the whole processing of a frame inside it (R120, R282). In a
state inside a frame's processing, which no step from reset leaves behind, it is the window at the cursor or the tag
of the assembled record, or the pair of periods that the Framer is about to test (log entry 6). -/

namespace Sys2Proof.Machine

/-- The place of the next operation, with what stands there. -/
inductive FetchSite where
  /-- No operation on the input port: the block waits for the host (R283). -/
  | waiting
  /-- The next HOSTOP word, and the words after it. -/
  | port (w : HostWord) (rest : List HostWord)
  /-- The window at the cursor of a frame that is being decoded. -/
  | cursor (w : WindowWord) (avail : Nat)
  /-- The tag of an assembled record that is not yet classified. -/
  | tag (t : Option Byte)
  /-- The last two periods of a buffer that has just been appended to, where it holds two. -/
  | pair (w : Option (BitVec 10))
deriving DecidableEq, Repr

/-- The next operation on the input port. -/
def portSite : List HostWord → FetchSite
  | [] => .waiting
  | w :: rest => .port w rest

/-- The last two periods as a FRAMESYM pair, where they exist (R85). -/
def pairWord (fb : List Period) : Option (BitVec 10) := (lastTwo fb).map fun (a, b) => framePair a b

/-- The next operation where no frame is in decoding. `P` live and `F` dead: the period has been appended and the
Framer is about to test the pair. Else: the input port. -/
def framerSite (s : State) : FetchSite :=
  match s.work.p, s.work.f with
  | some _, none => .pair (pairWord s.fb)
  | _, _ => portSite s.input

/-- Where the next operation stands. `BUF` live: the Classifier is next. Else `WF` and `POS` live: the RLL Decoder
is at work. Else: the Framer or the input port. -/
def fetchSite (s : State) : FetchSite :=
  match s.work.buf with
  | some buf => .tag buf.head?
  | none =>
    match s.work.wf, s.work.pos with
    | some wf, some pos => .cursor (windowWord wf pos) (windowAvail wf pos)
    | _, _ => framerSite s

/-- The operation that a pair of periods selects: none for "no sync, keep accumulating", and none where the buffer
holds fewer than two periods (R85, R152). -/
def pairInstr (w : Option (BitVec 10)) : Option Instr := w.bind decodePair

/-- After a code word the decode loop goes on; after `RLL.STOP` the Byte Assembler takes the bits (R126, R186). -/
def afterCodeWord (i : Instr) (s : State) : Result := if i = .rllStop then assembleOp s else .next s

/-- The eight symbols that a window word stands for, `w[7]` first (R87). -/
def windowSymbols (w : WindowWord) : List Symbol :=
  [7, 6, 5, 4, 3, 2, 1, 0].map fun i => Symbol.ofBit (w.getLsbD i)

/-- The state in which an encoding is the next to be fetched: a HOSTOP word on the input port of a block between
steps; a pair at the end of the buffer; a window at `START` of a waveform behind two skipped symbols; a tag in a
record. -/
def placeEncoded (e : Encoded) (s : State) : State :=
  match e with
  | .hostop w => (s.setInput (w :: s.input)).setWork Work.dead
  | .framesym w =>
    (s.setFb (s.fb ++ [w.extractLsb' 5 5, w.extractLsb' 0 5])).setWork
      { Work.dead with p := some (w.extractLsb' 0 5), ev := some [] }
  | .window w avail =>
    s.setWork
      { s.work with
        wf := some ([.filler, .filler] ++ (windowSymbols w).take avail)
        pos := some startOffset
        bits := some []
        buf := none
        ev := some [] }
  | .tag t => s.setWork { s.work with buf := some t.toList, ev := some [] }

/-- The state in which the encodings are fetched one after the other. -/
def placeAll (es : List Encoded) (s : State) : State := es.foldr placeEncoded s

end Sys2Proof.Machine
end

