-- ==== Sys2Proof/Machine/Step.lean ====
section
/-! DEFINITION. One step (40_top_level_ops.md R120), and the state in which a given encoding is run next. -/

namespace Sys2Proof.Machine

/-- One step: the operation at the fetch site runs. A host operation leaves the input port as it runs (R120). Inside
a host operation one code word, one record class or the sync pair runs, and the sequencing goes on from it. With
nothing on the input port the block waits (R283). -/
def step (s : State) : Host.Outcome State Fault Refusal :=
  match fetchSite s with
  | .waiting => .next s
  | .port w rest => exec (decodeHostOp w) (s.setInput rest)
  | .cursor w avail => andThen (exec (decodeWindow w avail) s) (afterCodeWord (decodeWindow w avail))
  | .tag t => andThen (exec (decodeTag t) s) endOp
  | .pair w => match pairInstr w with
    | some i => andThen (exec i s) endOp
    | none => endOp s

/-- The state in which the very next step fetches and runs the operation encoded by the bits `w` of a row of the
opcode table (log entry 2). Bits that are no encoding change nothing. -/
def State.withFetchWord (s : State) (nbits w : Nat) : State :=
  match placeTable nbits w with
  | .ok es => placeAll es s
  | .error _ => s

end Sys2Proof.Machine
end

