-- ==== Sys2Proof/Machine/Reference.lean ====
section
/-! DEFINITION. The block as the spec gives it without registers: the events of one frame (R126 as a function), the
Framer over a whole period sequence (R155), and the inverse of the code table (R190), which is no part of the block
and builds test frames only. Statements compare the machine with these. -/

namespace Sys2Proof.Machine

/-! ## Records and frames -/

/-- The event of a record, by its class; an empty record has none (R95, R98, R99, R210). -/
def recordEvent (buf : List Byte) : Option Event :=
  match buf with
  | [] => none
  | t :: _ =>
    if t = 0xF8 then
      some (.record ⟨.dm, buf.length, 14, (crc engine56 (0xA1 :: buf.take 520)).setWidth 56, buf.take 520⟩)
    else if 0xF8 < t.toNat then
      some (.record ⟨.am, buf.length, 4, (crc engine16 (0xA1 :: buf.take 6)).setWidth 56, buf.take 6⟩)
    else some (.record ⟨.unk, buf.length, 1, 0xF, buf.take 20⟩)

/-- The record of a frame. -/
def frameRecord (f : List Period) : List Byte := assembleBits (rllDecodeFrom (renderFrame f)).2

/-- The events of a frame: the diagnostic, then the record's event if there is one (R126, R67). -/
def frameEvents (f : List Period) : List Event :=
  .diag (renderFrame f).length :: (recordEvent (frameRecord f)).toList

/-- `ACC` after the classification of a record: the value of the engine that ran, or as it was (R212 to R214). -/
def recordAcc (buf : List Byte) (acc : Option Acc) : Option Acc :=
  match buf with
  | [] => acc
  | t :: _ =>
    if t = 0xF8 then some (crc engine56 (0xA1 :: buf.take 520))
    else if 0xF8 < t.toNat then some (crc engine16 (0xA1 :: buf.take 6))
    else acc

/-- The working registers after `ProcessFrame` of f: each stage's output in its register, the frame's events appended
to EV (R126). -/
def frameWork (f : List Period) (w : Work) : Work :=
  { w with
    wf := some (renderFrame f)
    pos := some (rllDecodeFrom (renderFrame f)).1
    bits := some (rllDecodeFrom (renderFrame f)).2
    buf := some (frameRecord f)
    acc := recordAcc (frameRecord f) w.acc
    ev := w.ev.map (· ++ frameEvents f) }

/-! ## The Framer over a stream -/

/-- The buffer holds a sync pair at its end: the test of `go` (R155). -/
def endsInSync (buf : List Period) : Bool :=
  decide (2 ≤ buf.length) && buf[buf.length - 2]? == some 8 && buf[buf.length - 1]? == some 3

/-- `go(buf, ps)` (R155). -/
def framesGo : List Period → List Period → List (List Period)
  | buf, [] => [buf]
  | buf, p :: rest =>
    if endsInSync (buf ++ [p]) then (buf ++ [p]).take ((buf ++ [p]).length - 2) :: framesGo [] rest
    else framesGo (buf ++ [p]) rest

/-- `Frames(ps) = go([], ps)` (R155). -/
def frames (ps : List Period) : List (List Period) := framesGo [] ps

/-- The frames with the sync pair put back between them, none after the last (R156). -/
def reinsertSync : List (List Period) → List Period
  | [] => []
  | [f] => f
  | f :: g :: rest => f ++ [8, 3] ++ reinsertSync (g :: rest)

/-- The periods of a HOSTOP word sequence made of `SAMPLE`s and `NOP`s (R127). -/
def wordPeriods (ws : List HostWord) : List Period :=
  ws.filterMap fun w => match decodeHostOp w with
    | .sample b => some (quantize b)
    | _ => none

/-! ## The decode loop as a relation -/

/-- `Decodes wf pos bits pos' bits'`: the loop of R186 from a cursor and the bits so far ends with these. -/
inductive Decodes (wf : List Symbol) : Nat → List Bool → Nat → List Bool → Prop where
  /-- No word matches: the loop exits and both keep their values (R185). -/
  | stop {pos : Nat} {bits : List Bool} (h : ∀ r ∈ codeRom, memRead wf pos r.len ≠ some r.pattern) :
      Decodes wf pos bits pos bits
  /-- A word matches: its bits are appended, the cursor advances by its length, and the loop goes on (R186). -/
  | word {pos pos' : Nat} {bits bits' : List Bool} (r : CodeRow) (hr : r ∈ codeRom)
      (hm : memRead wf pos r.len = some r.pattern)
      (h : Decodes wf (pos + r.len) (bits ++ r.bits) pos' bits') : Decodes wf pos bits pos' bits'

/-! ## The inverse table -/

/-- The symbols of a bit string that parses completely into bit groups, one pattern for each group (R190); `none` for
a string with an incomplete tail. -/
def encodeGroups : List Bool → Option (List Symbol)
  | [] => some []
  | true :: false :: rest => (encodeGroups rest).map (pat [0, 1, 0, 0] ++ ·)
  | true :: true :: rest => (encodeGroups rest).map (pat [1, 0, 0, 0] ++ ·)
  | false :: false :: false :: rest => (encodeGroups rest).map (pat [1, 0, 0, 1, 0, 0] ++ ·)
  | false :: true :: false :: rest => (encodeGroups rest).map (pat [0, 0, 0, 1, 0, 0] ++ ·)
  | false :: true :: true :: rest => (encodeGroups rest).map (pat [0, 0, 1, 0, 0, 0] ++ ·)
  | false :: false :: true :: false :: rest => (encodeGroups rest).map (pat [0, 0, 1, 0, 0, 1, 0, 0] ++ ·)
  | false :: false :: true :: true :: rest => (encodeGroups rest).map (pat [0, 0, 0, 0, 1, 0, 0, 0] ++ ·)
  | _ => none

/-- `Encode(bits)`: `--`, the patterns of the groups, `|` (R190). -/
def encodeBits (bits : List Bool) : Option (List Symbol) :=
  (encodeGroups bits).map fun ws => [.filler, .filler] ++ ws ++ [.separator]

/-- The run lengths of a symbol string split after every `|`, `n` symbols of the open run being already read (R190). -/
def runLengths : Nat → List Symbol → List Nat
  | _, [] => []
  | n, .filler :: rest => runLengths (n + 1) rest
  | n, .separator :: rest => (n + 1) :: runLengths 0 rest

/-- The periods of `Encode(bits)` (R190). -/
def encodePeriods (bits : List Bool) : Option (List Nat) := (encodeBits bits).map (runLengths 0)

/-! ## Check values -/

/-- The N/8 bytes of a check value, most significant first (R238). -/
def checkBytes (e : Engine) (r : Acc) : List Byte :=
  (List.range (e.n / 8)).map fun k => (r >>> (e.n - 8 * (k + 1))).setWidth 8

/-- The engine with `INIT = 0`, the `Crc0` of R236. -/
def Engine.zeroInit (e : Engine) : Engine := { e with init := 0 }

end Sys2Proof.Machine
end

