-- ==== Sys2Proof/Safety.lean ====
section
/-! DEFINITION. The terms in which statements speak of good states and good runs. -/

namespace Sys2Proof.Machine

/-- The block is between steps: every working register is dead (R25). -/
def State.quiet (s : State) : Prop := s.work = Work.dead

/-- No period of the buffer is above 20 (R24, R84). -/
def periodsOk (fb : List Period) : Prop := ∀ p ∈ fb, p.toNat ≤ periodMax

/-- No 8 is directly followed by a 3 (R153 f). -/
def noSyncInside : List Period → Prop
  | a :: b :: rest => ¬ (a = 8 ∧ b = 3) ∧ noSyncInside (b :: rest)
  | _ => True

/-- The buffer is within its capacity (R24). -/
def withinCap (cap : FrameCap) (fb : List Period) : Prop := ∀ c, cap = some c → fb.length ≤ c

/-- The fields of a record event hold together: class, digits, check value and payload (R98, R99). -/
def RecordFields.sound (r : RecordFields) : Prop :=
  match r.tag with
  | .dm => r.checkDigits = 14 ∧ r.payload.head? = some 0xF8 ∧ r.payload.length = min 520 r.byteLen ∧
      r.check = (crc engine56 (0xA1 :: r.payload)).setWidth 56
  | .am => r.checkDigits = 4 ∧ (∃ t, r.payload.head? = some t ∧ 0xF8 < t.toNat) ∧
      r.payload.length = min 6 r.byteLen ∧ r.check = (crc engine16 (0xA1 :: r.payload)).setWidth 56
  | .unk => r.checkDigits = 1 ∧ (∃ t, r.payload.head? = some t ∧ t.toNat < 0xF8) ∧
      r.payload.length = min 20 r.byteLen ∧ r.check = 0xF

/-- An event that the block can emit: a diagnostic of at least one symbol, or a sound record (R97, R98, R168). -/
def Event.sound : Event → Prop
  | .diag n => 1 ≤ n
  | .record r => r.sound

/-- Every record event directly follows a diagnostic (R67, R128). `prev` says that the event before is a diagnostic. -/
def recordsFollowDiags : Bool → List Event → Prop
  | _, [] => True
  | _, .diag _ :: rest => recordsFollowDiags true rest
  | prev, .record _ :: rest => prev = true ∧ recordsFollowDiags false rest

/-- What holds between steps: the working registers are dead (R25); the buffer holds periods 0 to 20 (R24), no sync
pair (R153), and no more than its capacity (R24); after the end of the stream it is empty and no fault is set (R15);
a fault was set by a full buffer (R23, R256). -/
structure State.Sound (s : State) : Prop where
  quiet : s.quiet
  periods : periodsOk s.fb
  noSync : noSyncInside s.fb
  cap : withinCap s.frameCap s.fb
  done : s.phase = .done → s.fb = [] ∧ s.fault = .none
  overflow : s.fault = .frameOverflow → s.frameCap = some s.fb.length

/-- The event output is one that the block can have produced. -/
structure State.OutSound (s : State) : Prop where
  events : ∀ e ∈ s.out, e.sound
  order : recordsFollowDiags false s.out

/-- The run is complete: an `EOS` has been executed, without a fault (R13, R15). -/
def State.runComplete (s : State) : Prop := s.phase = .done ∧ s.fb = [] ∧ s.fault = .none

end Sys2Proof.Machine
end

