-- ==== Sys2Proof/Certificates/Slice0/Obligations.lean ====
section
/-! DEFINITION. The statements for the provers. Each is about the machine, holds for every value of `FRAME_CAP` unless it
says otherwise, and names the rule of spec/ that it formalises. A next state is written as a record update of the
state before, so that the equation is also the frame: what the update does not name is unchanged. -/

open Sys2Proof Sys2Proof.Machine

/-! ## Formats -/

/-- R82, R85, R90, R95: a few encodings written out from the spec's tables decode to what they stand for. -/
def Obligations.WrittenEncodingsDecode : Prop :=
  decodeHostOp 0x000 = .nop ∧ decodeHostOp 0x164 = .sample 0x64 ∧ decodeHostOp 0x200 = .eos ∧
  decodeHostOp 0x300 = .reset ∧ decodePair 0x103 = some .framerSync ∧ decodePair 0x083 = none ∧
  decodeWindow 0x4F 8 = .rll10 ∧ decodeWindow 0x92 6 = .rll000 ∧ decodeWindow 0x92 5 = .rllStop ∧
  decodeWindow 0x24 8 = .rll0010 ∧ decodeWindow 0x24 7 = .rllStop ∧ decodeWindow 0x08 8 = .rll0011 ∧
  decodeTag (some 0xF8) = .recDm ∧ decodeTag (some 0xF9) = .recAm ∧ decodeTag (some 0xF7) = .recUnk ∧
  decodeTag none = .recNone

/-- Decode and encode agree: the encodings of a well-formed operation, whatever fills their free bits, decode to the
core operations it stands for (itself, or the expansion of a pseudo-operation, R112). -/
def Obligations.EncodingsDecodeToTheirOperation : Prop :=
  ∀ (i : Instr) (u : Byte), i.wf = true → (encodeWith u i).map decode = (expansion i).map .ok

/-- R82: all four operation codes are defined, so every HOSTOP word is the encoding of the operation it decodes to. -/
def Obligations.EveryHostWordIsAnEncoding : Prop :=
  ∀ w : HostWord, encodeWith (hostData w) (decodeHostOp w) = [.hostop w]

/-- R85: among all pairs of periods only (8, 3) is the sync pair, the word 0x103. -/
def Obligations.OnlyEightThreeIsTheSyncPair : Prop :=
  ∀ prev cur : Period,
    (decodePair (framePair prev cur) = some .framerSync ↔ prev = 8 ∧ cur = 3) ∧
    (decodePair (framePair prev cur) = none ↔ ¬ (prev = 8 ∧ cur = 3)) ∧
    (framePair prev cur).toNat = 32 * prev.toNat + cur.toNat

/-- R95: the tag byte selects the record class, compared unsigned; every byte belongs to exactly one. -/
def Obligations.TagSelectsTheClass : Prop :=
  decodeTag none = .recNone ∧
  ∀ t : Byte,
    (decodeTag (some t) = .recDm ↔ t.toNat = 0xF8) ∧ (decodeTag (some t) = .recAm ↔ 0xF9 ≤ t.toNat) ∧
    (decodeTag (some t) = .recUnk ↔ t.toNat ≤ 0xF7)

/-- R89, R91: no code word's pattern begins another's, and of the 256 full windows 46 match a code word. -/
def Obligations.CodeTableIsPrefixFree : Prop :=
  (∀ r ∈ codeRom, ∀ r' ∈ codeRom, r.pattern.isPrefixOf r'.pattern = true → r = r') ∧
  ((List.range 256).filter fun w => decodeWindow (BitVec.ofNat 8 w) 8 ≠ .rllStop).length = 46 ∧
  (∀ r ∈ codeRom, r.pattern.length = 2 * r.bits.length)

/-- R88, R177: the window decoder selects a code word exactly where its whole pattern stands at the cursor inside the
waveform, and stops exactly where no pattern does. -/
def Obligations.WindowDecodeIsPatternMatch : Prop :=
  ∀ (wf : List Symbol) (pos : Nat),
    (∀ r ∈ codeRom, decodeWindow (windowWord wf pos) (windowAvail wf pos) = r.instr ↔
      memRead wf pos r.len = some r.pattern) ∧
    (decodeWindow (windowWord wf pos) (windowAvail wf pos) = .rllStop ↔
      ∀ r ∈ codeRom, memRead wf pos r.len ≠ some r.pattern)

/-- R87: bits of the window past the end of the waveform have no value; the decoder does not depend on them. -/
def Obligations.WindowBitsPastTheEndAreUnread : Prop :=
  ∀ (w w' : WindowWord) (avail : Nat), (∀ i, i < min 8 avail → w.getLsbD (7 - i) = w'.getLsbD (7 - i)) →
    decodeWindow w avail = decodeWindow w' avail

/-! ## Reset, status -/

/-- R39: the state after reset; the value of FRAME_CAP there is the model's choice (log entry 1) and is not stated. -/
def Obligations.ResetStateHoldsItsValues : Prop :=
  State.reset.phase = .run ∧ State.reset.fault = .none ∧ State.reset.fb = [] ∧ State.reset.work = Work.dead

/-- R125: RESET is accepted in every state and restores PHASE, FAULT and FB; it emits nothing. -/
def Obligations.ResetRestoresTheResetState : Prop :=
  ∀ (s : State) (u : Byte), decodeHostOp (hostWord 3 u) = .reset ∧
    exec .reset s = .next { s with phase := .run, fault := .none, fb := [], work := Work.dead }

/-- R36: the two bits of STATUS. -/
def Obligations.StatusShowsPhaseAndFault : Prop :=
  ∀ s : State, s.status.getLsbD 0 = decide (s.phase = .done) ∧
    s.status.getLsbD 1 = decide (s.fault = .frameOverflow)

/-! ## Host operations -/

/-- R122: NOP, whatever its data field, leaves the persistent state and emits nothing. -/
def Obligations.NopChangesNothing : Prop :=
  ∀ (s : State) (u : Byte), decodeHostOp (hostWord 0 u) = .nop ∧
    exec .nop s = .next { s with work := Work.dead } ∧ (s.quiet → exec .nop s = .next s)

/-- R123: SAMPLE in every state: the refusal, the overflow, the sync hit, the append, in this order of priority. -/
def Obligations.SampleFollowsItsRule : Prop :=
  ∀ (s : State) (b : Byte), decodeHostOp (hostWord 1 b) = .sample b ∧
    ∃ p : Period, p.toNat = (2000 * b.toNat + 26665) / 26666 ∧
      exec (.sample b) s =
        if ¬ (s.phase = .run ∧ s.fault = .none) then .refused (.refusedInState s.phase s.fault)
        else if s.frameCap = some s.fb.length then .next { s with fault := .frameOverflow, work := Work.dead }
        else if s.fb.getLast? = some 8 ∧ p = 3 then
          .next { s with fb := [], out := s.out ++ frameEvents s.fb.dropLast, work := Work.dead }
        else .next { s with fb := s.fb ++ [p], work := Work.dead }

/-- R123, R151: SAMPLE completes, without a sync hit: the period is appended and nothing is emitted. -/
def Obligations.SampleAppendsItsPeriod : Prop :=
  ∀ (s : State) (b : Byte), s.phase = .run → s.fault = .none → s.frameCap ≠ some s.fb.length →
    ¬ (s.fb.getLast? = some 8 ∧ quantize b = 3) →
    exec (.sample b) s = .next { s with fb := s.fb ++ [quantize b], work := Work.dead }

/-- R123, R152: SAMPLE completes with a sync hit: the frame is the buffer without the pair, its events leave, the buffer
is empty. Any sample byte 27 to 39 after a period 8 does it (R85). -/
def Obligations.SampleCutsTheFrame : Prop :=
  ∀ (s : State) (b : Byte) (f : List Period), s.phase = .run → s.fault = .none → s.frameCap ≠ some s.fb.length →
    s.fb = f ++ [8] → 27 ≤ b.toNat → b.toNat ≤ 39 →
    exec (.sample b) s = .next { s with fb := [], out := s.out ++ frameEvents f, work := Work.dead }

/-- R256, R259: FRAME_OVERFLOW is taken by a SAMPLE into a full buffer, even one that would complete a sync pair: only
FAULT is written. Then SAMPLE and EOS are refused, NOP and RESET accepted. With INF no SAMPLE sets FAULT. -/
def Obligations.FrameOverflowIsTaken : Prop :=
  (∀ (s : State) (b : Byte), s.phase = .run → s.fault = .none → s.frameCap = some s.fb.length →
    exec (.sample b) s = .next { s with fault := .frameOverflow, work := Work.dead }) ∧
  (∀ (s : State) (b : Byte), s.fault = .frameOverflow →
    exec (.sample b) s = .refused (.refusedInState s.phase s.fault) ∧
    exec .eos s = .refused (.refusedInState s.phase s.fault) ∧
    (∃ t, exec .nop s = .next t) ∧ ∃ t, exec .reset s = .next t) ∧
  (∀ (s t : State) (b : Byte), s.frameCap = none → exec (.sample b) s = .next t → t.fault = .none)

/-- R124: EOS hands the whole buffer to the pipeline, ends the stream and is refused after it or after a fault. -/
def Obligations.EosFlushesTheBuffer : Prop :=
  ∀ (s : State) (u : Byte), decodeHostOp (hostWord 2 u) = .eos ∧
    (s.phase = .run → s.fault = .none →
      exec .eos s =
        .next { s with phase := .done, fb := [], out := s.out ++ frameEvents s.fb, work := Work.dead }) ∧
    (¬ (s.phase = .run ∧ s.fault = .none) → exec .eos s = .refused (.refusedInState s.phase s.fault))

/-- R121: which operation is accepted in which state; what is not accepted is refused. -/
def Obligations.AcceptanceTable : Prop :=
  ∀ (s : State) (b : Byte),
    (∃ t, exec .nop s = .next t) ∧ (∃ t, exec .reset s = .next t) ∧
    ((∃ t, exec (.sample b) s = .next t) ↔ s.phase = .run ∧ s.fault = .none) ∧
    ((∃ t, exec .eos s = .next t) ↔ s.phase = .run ∧ s.fault = .none) ∧
    (¬ (s.phase = .run ∧ s.fault = .none) →
      (∃ r, exec (.sample b) s = .refused r) ∧ ∃ r, exec .eos s = .refused r)

/-- R261: the only way out of the faulted state and out of DONE is RESET. -/
def Obligations.OnlyResetLeavesDoneOrFault : Prop :=
  ∀ s t : State, s.quiet → (s.phase = .done ∨ s.fault = .frameOverflow) → step s = .next t →
    (t.phase = s.phase ∧ t.fault = s.fault ∧ t.fb = s.fb ∧ t.out = s.out) ∨
    (∃ w rest, s.input = w :: rest ∧ decodeHostOp w = .reset ∧
      t = { s with phase := .run, fault := .none, fb := [], input := rest })

/-- R25, R126: between steps no step faults: no host operation reads a dead register, no stage can fail. -/
def Obligations.HostStepsNeverFault : Prop := ∀ (s : State) (r : Fault), s.quiet → step s ≠ .fault r

/-- R33, R67, R259: a step between steps emits nothing, one diagnostic, or one diagnostic and then one record. -/
def Obligations.StepEmitsAtMostTwoEvents : Prop :=
  ∀ s t : State, s.quiet → step s = .next t →
    t.out = s.out ∨ (∃ n, t.out = s.out ++ [.diag n]) ∨ ∃ n r, t.out = s.out ++ [.diag n, .record r]

/-! ## Pseudo-operations -/

/-- R112: PERIOD n is SAMPLE of a byte that quantizes to n, for n = 0 to 20. R112 gives no other operand; that an operand
of 21 to 31 is refused, with operandOutOfRange, is the model's choice (log entry 9, DEDUCED). -/
def Obligations.PeriodIsSampleOfItsByte : Prop :=
  ∀ n : Period,
    (n.toNat ≤ 20 → ∃ b, canon n = some b ∧ quantize b = n ∧ ∀ s, exec (.period n) s = exec (.sample b) s) ∧
    (20 < n.toNat → ∀ s, exec (.period n) s = .refused (.operandOutOfRange n))

/-- R112, R151: PERIOD completes, without a sync hit: the period is appended. -/
def Obligations.PeriodAppends : Prop :=
  ∀ (s : State) (n : Period), n.toNat ≤ 20 → s.phase = .run → s.fault = .none → s.frameCap ≠ some s.fb.length →
    ¬ (s.fb.getLast? = some 8 ∧ n = 3) → exec (.period n) s = .next { s with fb := s.fb ++ [n], work := Work.dead }

/-- R112, R155: PERIODS completes and feeds its periods to the Framer: the frames it closes emit their events in order,
and the open one stays in the buffer. -/
def Obligations.PeriodsFeedTheFramer : Prop :=
  ∀ (s : State) (n : Period) (ns : List Period), (∀ k ∈ n :: ns, k.toNat ≤ 20) → s.phase = .run → s.fault = .none →
    s.frameCap = none →
    exec (.periods (n :: ns)) s = .next
      { s with
        fb := (framesGo s.fb (n :: ns)).getLastD []
        out := s.out ++ (framesGo s.fb (n :: ns)).dropLast.flatMap frameEvents
        work := Work.dead }

/-- R112, R152: the pseudo-operation SYNC completes where the buffer has room for the pair: it closes the frame. -/
def Obligations.SyncClosesTheFrame : Prop :=
  ∀ s : State, s.phase = .run → s.fault = .none → (∀ c, s.frameCap = some c → s.fb.length + 2 ≤ c) →
    exec .sync s = .next { s with fb := [], out := s.out ++ frameEvents s.fb, work := Work.dead }

/-- R112, R120: running the HOSTOP words that PERIODS expands to, one a step, is PERIODS. That the words stand in a list
that the steps take them from, and that PERIODS is refused as a whole and changes nothing with no operand, are the
model's choices (log entries 3 and 9). -/
def Obligations.PeriodsRunAsTheirWords : Prop :=
  ∀ (s : State) (ns : List Period) (ws rest : List HostWord), s.quiet → ns.mapM periodWord = some ws →
    s.input = ws ++ rest →
    Host.Core.run Sys2Proof.core ns.length s = exec (.periods ns) { s with input := rest }

/-! ## The Quantizer and the Framer -/

/-- R140: Q completes and writes P only, with the rounded value of (b + 6.666) / 13.333. -/
def Obligations.QuantizerIsTheRoundedQuotient : Prop :=
  ∀ (b : Byte) (s : State), ∃ p : Period,
    exec (.q b) s = .next { s with work := { s.work with p := some p } } ∧
    (p.toNat : ℤ) = max 0 (round (((b.toNat : ℚ) + 6666 / 1000) / (13333 / 1000)))

/-- R141, R142: the integer form, its range, and the table of the ranges' first bytes. -/
def Obligations.QuantizerTable : Prop :=
  ∀ b : Byte, (quantize b).toNat = (2000 * b.toNat + 26665) / 26666 ∧ (quantize b).toNat ≤ 20 ∧
    (quantize b).toNat = (([1, 14, 27, 40, 54, 67, 80, 94, 107, 120] ++
      [134, 147, 160, 174, 187, 200, 214, 227, 240, 254]).filter fun n => n ≤ b.toNat).length ∧
    romQ[b.toNat]? = some (quantize b)

/-- R151: FRAMER.APPEND completes: FB takes P at its end, whatever its value; nothing else changes. -/
def Obligations.AppendStoresThePeriod : Prop :=
  ∀ (s : State) (p : Period), s.work.p = some p → exec .framerAppend s = .next { s with fb := s.fb ++ [p] }

/-- R152: FRAMER.SYNC completes: a buffer that ends in 8, 3 is cut, its frame handed to ProcessFrame; any other buffer
is kept. -/
def Obligations.SyncDetectionCutsOrKeeps : Prop :=
  ∀ (s : State) (ev : List Event), s.work.ev = some ev →
    (∀ f, s.fb = f ++ [8, 3] →
      exec .framerSync s = .next { s with fb := [], work := frameWork f { s.work with f := some f } }) ∧
    ((∀ f, s.fb ≠ f ++ [8, 3]) → exec .framerSync s = .next s)

/-- R154: FRAMER.FLUSH completes: the whole buffer is the frame, nothing is stripped. -/
def Obligations.FlushHandsOverTheWholeBuffer : Prop :=
  ∀ (s : State) (ev : List Event), s.work.ev = some ev →
    exec .framerFlush s = .next { s with fb := [], work := frameWork s.fb { s.work with f := some s.fb } }

/-- R156, R153 (f): putting the sync pairs back between the frames gives the stream; no frame holds a pair. -/
def Obligations.FramingIsExact : Prop :=
  ∀ ps : List Period, reinsertSync (frames ps) = ps ∧ frames ps ≠ [] ∧ ∀ f ∈ frames ps, noSyncInside f

/-! ## The Waveform Renderer -/

/-- R166, R168, R169: RENDER completes and writes WF only: its length, and the place of every separator. -/
def Obligations.RenderPlacesTheSeparators : Prop :=
  ∀ (s : State) (f : List Period), s.work.f = some f → ∃ wf,
    exec .render s = .next { s with work := { s.work with wf := some wf } } ∧
    wf.length = 1 + (f.map fun dt => max dt.toNat 1).sum ∧
    wf.count .separator = f.length + 1 ∧
    wf.getLast? = some .separator ∧
    ∀ j, j < f.length → wf[((f.take (j + 1)).map fun dt => max dt.toNat 1).sum - 1]? = some .separator

/-! ## The RLL Decoder -/

/-- What a code word's rule says, its encoding and its pseudocode (the form of R178 to R184): pattern as bits, bits
emitted, match and mask of the window. -/
def Sys2Proof.Machine.codeWordRule (i : Instr) (p g : List Nat) (v m : WindowWord) : Prop :=
  (∀ (w : WindowWord) (avail : Nat), decodeWindow w avail = i ↔ p.length ≤ avail ∧ w &&& m = v) ∧
  ∀ (s : State) (wf : List Symbol) (pos : Nat) (bits : List Bool),
    s.work.wf = some wf → s.work.pos = some pos → s.work.bits = some bits →
    (memRead wf pos p.length = some (pat p) →
      exec i s = .next { s with work := { s.work with pos := some (pos + p.length), bits := some (bits ++ grp g) } }) ∧
    (memRead wf pos p.length ≠ some (pat p) → exec i s = .next s)

/-- R178 to R184: the seven code words, their encodings and what they do. -/
def Obligations.CodeWordsMatchAndAdvance : Prop :=
  codeWordRule .rll10 [0, 1, 0, 0] [1, 0] 0x40 0xF0 ∧
  codeWordRule .rll11 [1, 0, 0, 0] [1, 1] 0x80 0xF0 ∧
  codeWordRule .rll000 [1, 0, 0, 1, 0, 0] [0, 0, 0] 0x90 0xFC ∧
  codeWordRule .rll010 [0, 0, 0, 1, 0, 0] [0, 1, 0] 0x10 0xFC ∧
  codeWordRule .rll011 [0, 0, 1, 0, 0, 0] [0, 1, 1] 0x20 0xFC ∧
  codeWordRule .rll0010 [0, 0, 1, 0, 0, 1, 0, 0] [0, 0, 1, 0] 0x24 0xFF ∧
  codeWordRule .rll0011 [0, 0, 0, 0, 1, 0, 0, 0] [0, 0, 1, 1] 0x08 0xFF

/-- R185: RLL.STOP completes and changes nothing: BITS and POS keep their values. -/
def Obligations.StopKeepsBitsAndCursor : Prop :=
  ∀ (s : State) (wf : List Symbol) (pos : Nat) (bits : List Bool),
    s.work.wf = some wf → s.work.pos = some pos → s.work.bits = some bits → exec .rllStop s = .next s

/-- R186, R187: RLLDECODE completes on every waveform, writes POS and BITS only, with the one result that the loop has
from the cursor 2 and no bits. -/
def Obligations.DecodeRunsTheLoop : Prop :=
  ∀ (s : State) (wf : List Symbol), s.work.wf = some wf → ∃ pos bits,
    exec .rllDecode s = .next { s with work := { s.work with pos := some pos, bits := some bits } } ∧
    Decodes wf 2 [] pos bits ∧ ∀ pos' bits', Decodes wf 2 [] pos' bits' → pos' = pos ∧ bits' = bits

/-- R188, R29, R57: after the loop the bits are half the symbols consumed; the cursor is even, at least 2, and inside the
waveform but where nothing was consumed. -/
def Obligations.BitsAreHalfTheSymbols : Prop :=
  ∀ (wf : List Symbol) (pos : Nat) (bits : List Bool), Decodes wf 2 [] pos bits →
    2 * bits.length + 2 = pos ∧ pos % 2 = 0 ∧ pos ≤ max 2 wf.length

/-- R52, R189: the two leading symbols of the waveform are never read. -/
def Obligations.LeadingSymbolsAreUnread : Prop :=
  ∀ (a b a' b' : Symbol) (rest : List Symbol) (s t : State),
    s.work.wf = some (a :: b :: rest) → t.work.wf = some (a' :: b' :: rest) →
    ∃ pos bits,
      exec .rllDecode s = .next { s with work := { s.work with pos := some pos, bits := some bits } } ∧
      exec .rllDecode t = .next { t with work := { t.work with pos := some pos, bits := some bits } }

/-- R191: a bit string that parses completely into the seven groups, encoded as a frame, rendered and decoded, comes
back bit for bit, and the decoder stops at the final two separators. -/
def Obligations.EncodedFrameDecodesToItsBits : Prop :=
  ∀ (bits : List Bool) (f : List Period) (s : State),
    encodePeriods bits = some (f.map BitVec.toNat) → s.work.f = some f →
    ∃ wf, andThen (exec .render s) (exec .rllDecode) =
        .next { s with work := { s.work with wf := some wf, pos := some (2 * bits.length + 2), bits := some bits } } ∧
      wf.length = 2 * bits.length + 4 ∧ wf.drop (2 * bits.length + 2) = [.separator, .separator]

/-- R194, R191: in an encoded frame every period is 3 to 8, and an 8 is never followed by a 3. -/
def Obligations.EncodedFrameHoldsNoSyncPair : Prop :=
  ∀ (bits : List Bool) (ps : List Nat), encodePeriods bits = some ps →
    (∀ n ∈ ps, 3 ≤ n ∧ n ≤ 8) ∧ ∀ k, ps[k]? = some 8 → ps[k + 1]? ≠ some 3

/-! ## The Byte Assembler -/

/-- R202, R203: ASSEMBLE completes and writes BUF only: the number of bytes, and the place of every bit, most significant
first, after the one dropped bit, whose value does not matter. -/
def Obligations.AssemblePacksTheBits : Prop :=
  ∀ (s : State) (bits : List Bool), s.work.bits = some bits → ∃ buf,
    exec .assemble s = .next { s with work := { s.work with buf := some buf } } ∧
    buf.length = (bits.length - 1) / 8 ∧
    (∀ k j, k < buf.length → j < 8 → (buf.getD k 0).getLsbD (7 - j) = bits.getD (1 + 8 * k + j) false) ∧
    ∀ x, assembleBits (x :: bits.drop 1) = assembleBits (false :: bits.drop 1)

/-! ## The Classifier and the engines -/

/-- R210, R216: CLASSIFY completes; it does what the class that the tag selects does, and a record that is not empty gets
exactly one record event. -/
def Obligations.ClassifyRunsTheSelectedClass : Prop :=
  ∀ (s : State) (buf : List Byte) (ev : List Event), s.work.buf = some buf → s.work.ev = some ev →
    exec .classify s = exec (decodeTag buf.head?) s ∧
    ∃ t evs, exec .classify s = .next t ∧
      t = { s with work := { s.work with acc := t.work.acc, ev := some (ev ++ evs) } } ∧
      (buf = [] → evs = []) ∧ (buf ≠ [] → ∃ r, evs = [.record r])

/-- R211: REC.NONE completes: an empty record has no event. -/
def Obligations.EmptyRecordHasNoEvent : Prop :=
  ∀ s : State, s.work.buf = some [] → exec .recNone s = .next s ∧ exec .classify s = .next s

/-- R212, R100, R215: REC.DM completes on a tag 0xF8: the 56-bit engine over the preamble and up to 520 bytes. -/
def Obligations.DataMarkIsReported : Prop :=
  ∀ (s : State) (rest : List Byte) (ev : List Event),
    s.work.buf = some (0xF8 :: rest) → s.work.ev = some ev → ∃ acc,
    exec (.crc56 (0xA1 :: (0xF8 :: rest).take 520)) s = .next { s with work := { s.work with acc := some acc } } ∧
    exec .recDm s = .next { s with work := { s.work with
      acc := some acc
      ev := some (ev ++ [.record
        ⟨.dm, rest.length + 1, 14, acc.setWidth 56, (0xF8 :: rest).take 520⟩]) } }

/-- R213, R100, R215: REC.AM completes on a tag above 0xF8: the CRC-16 over the preamble and up to 6 bytes. -/
def Obligations.AddressMarkIsReported : Prop :=
  ∀ (s : State) (t : Byte) (rest : List Byte) (ev : List Event),
    0xF9 ≤ t.toNat → s.work.buf = some (t :: rest) → s.work.ev = some ev → ∃ acc,
    exec (.crc16 (0xA1 :: (t :: rest).take 6)) s = .next { s with work := { s.work with acc := some acc } } ∧
    exec .recAm s = .next { s with work := { s.work with
      acc := some acc
      ev := some (ev ++ [.record ⟨.am, rest.length + 1, 4, acc.setWidth 56, (t :: rest).take 6⟩]) } }

/-- R214, R215: REC.UNK completes on a tag below 0xF8: the sentinel, up to 20 bytes, and no engine runs. -/
def Obligations.UnknownRecordIsReported : Prop :=
  ∀ (s : State) (t : Byte) (rest : List Byte) (ev : List Event),
    t.toNat ≤ 0xF7 → s.work.buf = some (t :: rest) → s.work.ev = some ev →
    exec .recUnk s = .next { s with work := { s.work with
      ev := some (ev ++ [.record ⟨.unk, rest.length + 1, 1, 0xF, (t :: rest).take 20⟩]) } }

/-- The model's choice (log entry 5): a record class that the tag does not select has no effect. -/
def Obligations.UnselectedClassHasNoEffect : Prop :=
  ∀ (s : State) (buf : List Byte), s.work.buf = some buf →
    (buf.head? ≠ some 0xF8 → exec .recDm s = .next s) ∧
    ((∀ t, buf.head? = some t → t.toNat ≤ 0xF8) → exec .recAm s = .next s) ∧
    ((∀ t, buf.head? = some t → 0xF8 ≤ t.toNat) → exec .recUnk s = .next s)

/-- R231, R233, R234, R235: CRC16 and CRC56 complete and write ACC only, with the result of the bit-serial rule, which
stays within the engine's width. -/
def Obligations.EnginesWriteTheirCheckValue : Prop :=
  ∀ (s : State) (msg : List Byte),
    (∃ acc, exec (.crc16 msg) s = .next { s with work := { s.work with acc := some acc } } ∧
      acc = crc engine16 msg ∧ acc.toNat < 2 ^ 16) ∧
    ∃ acc, exec (.crc56 msg) s = .next { s with work := { s.work with acc := some acc } } ∧
      acc = crc engine56 msg ∧ acc.toNat < 2 ^ 56

/-- R231, R232: the engine over one more byte: the byte enters the top byte of the register, then eight times a left
shift and, on a carry out of the width, the polynomial. -/
def Obligations.EngineByteIsEightShifts : Prop :=
  ∀ (e : Engine) (msg : List Byte) (b : Byte), (e = engine16 ∨ e = engine56) →
    crc e [] = e.init ∧
    (crc e (msg ++ [b])).toNat =
      (List.range 8).foldl
        (fun a _ => if 2 ^ e.n ≤ 2 * a then (2 * a) ^^^ e.poly.toNat else 2 * a)
        ((crc e msg).toNat ^^^ (b.toNat * 2 ^ (e.n - 8)))

/-- R236: the engines are affine in the message: the exclusive-OR of two check values is the check value, from a register
of zeros, of the exclusive-OR of the messages. -/
def Obligations.EnginesAreAffine : Prop :=
  ∀ (e : Engine) (a b : List Byte), (e = engine16 ∨ e = engine56) → a.length = b.length →
    crc e a ^^^ crc e b = crc e.zeroInit (List.zipWith (· ^^^ ·) a b)

/-- R238: a message followed by its own check value, most significant byte first, has the check value 0. -/
def Obligations.OwnCheckValueLeavesZero : Prop :=
  ∀ (e : Engine) (msg : List Byte), (e = engine16 ∨ e = engine56) →
    crc e (msg ++ checkBytes e (crc e msg)) = 0

/-! ## The pipeline -/

/-- R126, R176: PROCESSFRAME completes on every frame: the diagnostic before decoding, each stage's output in its
register, and the record's event, if there is one, after the diagnostic. -/
def Obligations.ProcessFrameRunsEveryStage : Prop :=
  ∀ (s : State) (f : List Period) (ev : List Event), s.work.f = some f → s.work.ev = some ev →
    exec .processFrame s =
      andThen (exec .render s) (fun t => andThen (emit (.diag (renderFrame f).length) t) fun t =>
        andThen (exec .rllDecode t) fun t => andThen (exec .assemble t) (exec .classify)) ∧
    exec .processFrame s = .next { s with work := frameWork f s.work } ∧
    (frameWork f s.work).ev =
      some (ev ++ .diag (renderFrame f).length :: (recordEvent (frameRecord f)).toList)

/-! ## The step -/

/-- R120, R81: between steps a step runs the operation that the next word on the input port decodes to, and takes that
word off the port; with no word the block waits (the model's choice, log entry 3). -/
def Obligations.StepRunsTheNextHostOperation : Prop :=
  ∀ s : State, s.quiet →
    (∀ w rest, s.input = w :: rest → step s = exec (decodeHostOp w) { s with input := rest }) ∧
    (s.input = [] → step s = .next s)

/-- The model's sequencing inside a host operation (log entry 6): a step runs the code word at the cursor, and after
RLL.STOP the Byte Assembler; or the record class that the tag selects, and then the step ends; or the sync pair. -/
def Obligations.StepInsideAFrameRunsItsOperation : Prop :=
  ∀ s : State,
    (∀ wf pos, s.work.buf = none → s.work.wf = some wf → s.work.pos = some pos →
      step s = andThen (exec (decodeWindow (windowWord wf pos) (windowAvail wf pos)) s) fun t =>
        if decodeWindow (windowWord wf pos) (windowAvail wf pos) = .rllStop then exec .assemble t else .next t) ∧
    (∀ buf, s.work.buf = some buf → step s = andThen (exec (decodeTag buf.head?) s) endOp) ∧
    (∀ p, s.work = { Work.dead with p := some p, ev := s.work.ev } →
      step s = andThen (exec .framerSync s) endOp)

/-- R2, R67, R186 (the refinement): a frame rendered and reported, stepped one code word and then one record class a step,
ends in exactly the state in which the host operation ends that processes it whole. That a step runs one code word or one
record class there is the model's choice (log entry 6, DESIGN CHOICE); the spec's own step is indivisible (R120). -/
def Obligations.SteppingThroughAFrameIsProcessFrame : Prop :=
  ∀ (s : State) (f : List Period) (ev : List Event), ∃ n,
    Host.Core.run Sys2Proof.core n
      { s with work :=
        { Work.dead with
          f := some f, wf := some (renderFrame f), pos := some 2, bits := some []
          ev := some (ev ++ [.diag (renderFrame f).length]) } } =
    andThen (exec .processFrame { s with work := { Work.dead with f := some f, ev := some ev } }) endOp

/-! ## Invariants -/

/-- What holds between steps is kept by every step. -/
def Obligations.StepKeepsSoundStates : Prop := ∀ s t : State, s.Sound → step s = .next t → t.Sound

/-- The state after reset satisfies the invariants. -/
def Obligations.ResetStateIsSound : Prop := State.reset.Sound ∧ State.reset.OutSound

/-- R67, R98, R99, R128: every event the block emits is sound, and every record directly follows a diagnostic. -/
def Obligations.StepKeepsSoundOutput : Prop :=
  ∀ s t : State, s.quiet → s.OutSound → step s = .next t → t.OutSound

/-! ## Whole streams -/

/-- R127: samples and NOPs in any order and then EOS, from the reset state of PHASE, FAULT and FB with FRAME_CAP = INF:
the events are those of the frames that the Framer cuts from the quantized stream, in order. -/
def Obligations.StreamEmitsTheEventsOfItsFrames : Prop :=
  ∀ (s : State) (ws rest : List HostWord) (w : HostWord), s.quiet → s.phase = .run → s.fault = .none → s.fb = [] →
    s.frameCap = none → (∀ x ∈ ws, decodeHostOp x = .nop ∨ ∃ b, decodeHostOp x = .sample b) →
    decodeHostOp w = .eos → s.input = ws ++ w :: rest →
    Host.Core.run Sys2Proof.core (ws.length + 1) s = .next
      { s with phase := .done, input := rest, out := s.out ++ (frames (wordPeriods ws)).flatMap frameEvents }

/-- R128: a completed run, from nothing emitted, has one diagnostic for each frame, one more than the sync hits. -/
def Obligations.OneDiagnosticPerFrame : Prop :=
  ∀ ps : List Period,
    ((frames ps).flatMap frameEvents).countP (fun e => e.kind == 4) = (frames ps).length ∧
    ((frames ps).flatMap frameEvents).countP (fun e => e.kind == 6) =
      ((frames ps).filter fun f => frameRecord f ≠ []).length ∧
    (frames ps).length = 1 +
      ((List.range ps.length).filter fun i => ps[i]? = some 8 ∧ ps[i + 1]? = some 3).length
end

