-- ==== Sys2Proof/Laws/State.lean ====
section
/-! SUPPORT. One lemma per field per named update of the state, each true by rfl, so that no later proof unfolds a record
update. -/

namespace Sys2Proof.Machine

@[simp] theorem State.setPhase_phase (s : State) (x : Phase) : (s.setPhase x).phase = x := rfl
@[simp] theorem State.setPhase_fault (s : State) (x : Phase) : (s.setPhase x).fault = s.fault := rfl
@[simp] theorem State.setPhase_fb (s : State) (x : Phase) : (s.setPhase x).fb = s.fb := rfl
@[simp] theorem State.setPhase_frameCap (s : State) (x : Phase) : (s.setPhase x).frameCap = s.frameCap := rfl
@[simp] theorem State.setPhase_work (s : State) (x : Phase) : (s.setPhase x).work = s.work := rfl
@[simp] theorem State.setPhase_input (s : State) (x : Phase) : (s.setPhase x).input = s.input := rfl
@[simp] theorem State.setPhase_out (s : State) (x : Phase) : (s.setPhase x).out = s.out := rfl
@[simp] theorem State.setPhase_setPhase (s : State) (x y : Phase) : (s.setPhase x).setPhase y = s.setPhase y := rfl
@[simp] theorem State.setPhase_self (s : State) : s.setPhase s.phase = s := rfl

@[simp] theorem State.setFault_phase (s : State) (x : FaultCode) : (s.setFault x).phase = s.phase := rfl
@[simp] theorem State.setFault_fault (s : State) (x : FaultCode) : (s.setFault x).fault = x := rfl
@[simp] theorem State.setFault_fb (s : State) (x : FaultCode) : (s.setFault x).fb = s.fb := rfl
@[simp] theorem State.setFault_frameCap (s : State) (x : FaultCode) : (s.setFault x).frameCap = s.frameCap := rfl
@[simp] theorem State.setFault_work (s : State) (x : FaultCode) : (s.setFault x).work = s.work := rfl
@[simp] theorem State.setFault_input (s : State) (x : FaultCode) : (s.setFault x).input = s.input := rfl
@[simp] theorem State.setFault_out (s : State) (x : FaultCode) : (s.setFault x).out = s.out := rfl
@[simp] theorem State.setFault_setFault (s : State) (x y : FaultCode) : (s.setFault x).setFault y = s.setFault y := rfl
@[simp] theorem State.setFault_self (s : State) : s.setFault s.fault = s := rfl

@[simp] theorem State.setFb_phase (s : State) (x : List Period) : (s.setFb x).phase = s.phase := rfl
@[simp] theorem State.setFb_fault (s : State) (x : List Period) : (s.setFb x).fault = s.fault := rfl
@[simp] theorem State.setFb_fb (s : State) (x : List Period) : (s.setFb x).fb = x := rfl
@[simp] theorem State.setFb_frameCap (s : State) (x : List Period) : (s.setFb x).frameCap = s.frameCap := rfl
@[simp] theorem State.setFb_work (s : State) (x : List Period) : (s.setFb x).work = s.work := rfl
@[simp] theorem State.setFb_input (s : State) (x : List Period) : (s.setFb x).input = s.input := rfl
@[simp] theorem State.setFb_out (s : State) (x : List Period) : (s.setFb x).out = s.out := rfl
@[simp] theorem State.setFb_setFb (s : State) (x y : List Period) : (s.setFb x).setFb y = s.setFb y := rfl
@[simp] theorem State.setFb_self (s : State) : s.setFb s.fb = s := rfl

@[simp] theorem State.setWork_phase (s : State) (x : Work) : (s.setWork x).phase = s.phase := rfl
@[simp] theorem State.setWork_fault (s : State) (x : Work) : (s.setWork x).fault = s.fault := rfl
@[simp] theorem State.setWork_fb (s : State) (x : Work) : (s.setWork x).fb = s.fb := rfl
@[simp] theorem State.setWork_frameCap (s : State) (x : Work) : (s.setWork x).frameCap = s.frameCap := rfl
@[simp] theorem State.setWork_work (s : State) (x : Work) : (s.setWork x).work = x := rfl
@[simp] theorem State.setWork_input (s : State) (x : Work) : (s.setWork x).input = s.input := rfl
@[simp] theorem State.setWork_out (s : State) (x : Work) : (s.setWork x).out = s.out := rfl
@[simp] theorem State.setWork_setWork (s : State) (x y : Work) : (s.setWork x).setWork y = s.setWork y := rfl
@[simp] theorem State.setWork_self (s : State) : s.setWork s.work = s := rfl

@[simp] theorem State.setInput_phase (s : State) (x : List HostWord) : (s.setInput x).phase = s.phase := rfl
@[simp] theorem State.setInput_fault (s : State) (x : List HostWord) : (s.setInput x).fault = s.fault := rfl
@[simp] theorem State.setInput_fb (s : State) (x : List HostWord) : (s.setInput x).fb = s.fb := rfl
@[simp] theorem State.setInput_frameCap (s : State) (x : List HostWord) : (s.setInput x).frameCap = s.frameCap := rfl
@[simp] theorem State.setInput_work (s : State) (x : List HostWord) : (s.setInput x).work = s.work := rfl
@[simp] theorem State.setInput_input (s : State) (x : List HostWord) : (s.setInput x).input = x := rfl
@[simp] theorem State.setInput_out (s : State) (x : List HostWord) : (s.setInput x).out = s.out := rfl
@[simp] theorem State.setInput_setInput (s : State) (x y : List HostWord) : (s.setInput x).setInput y = s.setInput y := rfl
@[simp] theorem State.setInput_self (s : State) : s.setInput s.input = s := rfl

@[simp] theorem State.setOut_phase (s : State) (x : List Event) : (s.setOut x).phase = s.phase := rfl
@[simp] theorem State.setOut_fault (s : State) (x : List Event) : (s.setOut x).fault = s.fault := rfl
@[simp] theorem State.setOut_fb (s : State) (x : List Event) : (s.setOut x).fb = s.fb := rfl
@[simp] theorem State.setOut_frameCap (s : State) (x : List Event) : (s.setOut x).frameCap = s.frameCap := rfl
@[simp] theorem State.setOut_work (s : State) (x : List Event) : (s.setOut x).work = s.work := rfl
@[simp] theorem State.setOut_input (s : State) (x : List Event) : (s.setOut x).input = s.input := rfl
@[simp] theorem State.setOut_out (s : State) (x : List Event) : (s.setOut x).out = x := rfl
@[simp] theorem State.setOut_setOut (s : State) (x y : List Event) : (s.setOut x).setOut y = s.setOut y := rfl
@[simp] theorem State.setOut_self (s : State) : s.setOut s.out = s := rfl

@[simp] theorem State.setP_phase (s : State) (x : Period) : (s.setP x).phase = s.phase := rfl
@[simp] theorem State.setP_fault (s : State) (x : Period) : (s.setP x).fault = s.fault := rfl
@[simp] theorem State.setP_fb (s : State) (x : Period) : (s.setP x).fb = s.fb := rfl
@[simp] theorem State.setP_frameCap (s : State) (x : Period) : (s.setP x).frameCap = s.frameCap := rfl
@[simp] theorem State.setP_input (s : State) (x : Period) : (s.setP x).input = s.input := rfl
@[simp] theorem State.setP_out (s : State) (x : Period) : (s.setP x).out = s.out := rfl
@[simp] theorem State.setP_work_p (s : State) (x : Period) : (s.setP x).work.p = some x := rfl
@[simp] theorem State.setP_work_f (s : State) (x : Period) : (s.setP x).work.f = s.work.f := rfl
@[simp] theorem State.setP_work_wf (s : State) (x : Period) : (s.setP x).work.wf = s.work.wf := rfl
@[simp] theorem State.setP_work_pos (s : State) (x : Period) : (s.setP x).work.pos = s.work.pos := rfl
@[simp] theorem State.setP_work_bits (s : State) (x : Period) : (s.setP x).work.bits = s.work.bits := rfl
@[simp] theorem State.setP_work_buf (s : State) (x : Period) : (s.setP x).work.buf = s.work.buf := rfl
@[simp] theorem State.setP_work_acc (s : State) (x : Period) : (s.setP x).work.acc = s.work.acc := rfl
@[simp] theorem State.setP_work_ev (s : State) (x : Period) : (s.setP x).work.ev = s.work.ev := rfl

@[simp] theorem State.setF_phase (s : State) (x : List Period) : (s.setF x).phase = s.phase := rfl
@[simp] theorem State.setF_fault (s : State) (x : List Period) : (s.setF x).fault = s.fault := rfl
@[simp] theorem State.setF_fb (s : State) (x : List Period) : (s.setF x).fb = s.fb := rfl
@[simp] theorem State.setF_frameCap (s : State) (x : List Period) : (s.setF x).frameCap = s.frameCap := rfl
@[simp] theorem State.setF_input (s : State) (x : List Period) : (s.setF x).input = s.input := rfl
@[simp] theorem State.setF_out (s : State) (x : List Period) : (s.setF x).out = s.out := rfl
@[simp] theorem State.setF_work_p (s : State) (x : List Period) : (s.setF x).work.p = s.work.p := rfl
@[simp] theorem State.setF_work_f (s : State) (x : List Period) : (s.setF x).work.f = some x := rfl
@[simp] theorem State.setF_work_wf (s : State) (x : List Period) : (s.setF x).work.wf = s.work.wf := rfl
@[simp] theorem State.setF_work_pos (s : State) (x : List Period) : (s.setF x).work.pos = s.work.pos := rfl
@[simp] theorem State.setF_work_bits (s : State) (x : List Period) : (s.setF x).work.bits = s.work.bits := rfl
@[simp] theorem State.setF_work_buf (s : State) (x : List Period) : (s.setF x).work.buf = s.work.buf := rfl
@[simp] theorem State.setF_work_acc (s : State) (x : List Period) : (s.setF x).work.acc = s.work.acc := rfl
@[simp] theorem State.setF_work_ev (s : State) (x : List Period) : (s.setF x).work.ev = s.work.ev := rfl

@[simp] theorem State.setWf_phase (s : State) (x : List Symbol) : (s.setWf x).phase = s.phase := rfl
@[simp] theorem State.setWf_fault (s : State) (x : List Symbol) : (s.setWf x).fault = s.fault := rfl
@[simp] theorem State.setWf_fb (s : State) (x : List Symbol) : (s.setWf x).fb = s.fb := rfl
@[simp] theorem State.setWf_frameCap (s : State) (x : List Symbol) : (s.setWf x).frameCap = s.frameCap := rfl
@[simp] theorem State.setWf_input (s : State) (x : List Symbol) : (s.setWf x).input = s.input := rfl
@[simp] theorem State.setWf_out (s : State) (x : List Symbol) : (s.setWf x).out = s.out := rfl
@[simp] theorem State.setWf_work_p (s : State) (x : List Symbol) : (s.setWf x).work.p = s.work.p := rfl
@[simp] theorem State.setWf_work_f (s : State) (x : List Symbol) : (s.setWf x).work.f = s.work.f := rfl
@[simp] theorem State.setWf_work_wf (s : State) (x : List Symbol) : (s.setWf x).work.wf = some x := rfl
@[simp] theorem State.setWf_work_pos (s : State) (x : List Symbol) : (s.setWf x).work.pos = s.work.pos := rfl
@[simp] theorem State.setWf_work_bits (s : State) (x : List Symbol) : (s.setWf x).work.bits = s.work.bits := rfl
@[simp] theorem State.setWf_work_buf (s : State) (x : List Symbol) : (s.setWf x).work.buf = s.work.buf := rfl
@[simp] theorem State.setWf_work_acc (s : State) (x : List Symbol) : (s.setWf x).work.acc = s.work.acc := rfl
@[simp] theorem State.setWf_work_ev (s : State) (x : List Symbol) : (s.setWf x).work.ev = s.work.ev := rfl

@[simp] theorem State.setBuf_phase (s : State) (x : List Byte) : (s.setBuf x).phase = s.phase := rfl
@[simp] theorem State.setBuf_fault (s : State) (x : List Byte) : (s.setBuf x).fault = s.fault := rfl
@[simp] theorem State.setBuf_fb (s : State) (x : List Byte) : (s.setBuf x).fb = s.fb := rfl
@[simp] theorem State.setBuf_frameCap (s : State) (x : List Byte) : (s.setBuf x).frameCap = s.frameCap := rfl
@[simp] theorem State.setBuf_input (s : State) (x : List Byte) : (s.setBuf x).input = s.input := rfl
@[simp] theorem State.setBuf_out (s : State) (x : List Byte) : (s.setBuf x).out = s.out := rfl
@[simp] theorem State.setBuf_work_p (s : State) (x : List Byte) : (s.setBuf x).work.p = s.work.p := rfl
@[simp] theorem State.setBuf_work_f (s : State) (x : List Byte) : (s.setBuf x).work.f = s.work.f := rfl
@[simp] theorem State.setBuf_work_wf (s : State) (x : List Byte) : (s.setBuf x).work.wf = s.work.wf := rfl
@[simp] theorem State.setBuf_work_pos (s : State) (x : List Byte) : (s.setBuf x).work.pos = s.work.pos := rfl
@[simp] theorem State.setBuf_work_bits (s : State) (x : List Byte) : (s.setBuf x).work.bits = s.work.bits := rfl
@[simp] theorem State.setBuf_work_buf (s : State) (x : List Byte) : (s.setBuf x).work.buf = some x := rfl
@[simp] theorem State.setBuf_work_acc (s : State) (x : List Byte) : (s.setBuf x).work.acc = s.work.acc := rfl
@[simp] theorem State.setBuf_work_ev (s : State) (x : List Byte) : (s.setBuf x).work.ev = s.work.ev := rfl

@[simp] theorem State.setAcc_phase (s : State) (x : Acc) : (s.setAcc x).phase = s.phase := rfl
@[simp] theorem State.setAcc_fault (s : State) (x : Acc) : (s.setAcc x).fault = s.fault := rfl
@[simp] theorem State.setAcc_fb (s : State) (x : Acc) : (s.setAcc x).fb = s.fb := rfl
@[simp] theorem State.setAcc_frameCap (s : State) (x : Acc) : (s.setAcc x).frameCap = s.frameCap := rfl
@[simp] theorem State.setAcc_input (s : State) (x : Acc) : (s.setAcc x).input = s.input := rfl
@[simp] theorem State.setAcc_out (s : State) (x : Acc) : (s.setAcc x).out = s.out := rfl
@[simp] theorem State.setAcc_work_p (s : State) (x : Acc) : (s.setAcc x).work.p = s.work.p := rfl
@[simp] theorem State.setAcc_work_f (s : State) (x : Acc) : (s.setAcc x).work.f = s.work.f := rfl
@[simp] theorem State.setAcc_work_wf (s : State) (x : Acc) : (s.setAcc x).work.wf = s.work.wf := rfl
@[simp] theorem State.setAcc_work_pos (s : State) (x : Acc) : (s.setAcc x).work.pos = s.work.pos := rfl
@[simp] theorem State.setAcc_work_bits (s : State) (x : Acc) : (s.setAcc x).work.bits = s.work.bits := rfl
@[simp] theorem State.setAcc_work_buf (s : State) (x : Acc) : (s.setAcc x).work.buf = s.work.buf := rfl
@[simp] theorem State.setAcc_work_acc (s : State) (x : Acc) : (s.setAcc x).work.acc = some x := rfl
@[simp] theorem State.setAcc_work_ev (s : State) (x : Acc) : (s.setAcc x).work.ev = s.work.ev := rfl

@[simp] theorem State.setEv_phase (s : State) (x : List Event) : (s.setEv x).phase = s.phase := rfl
@[simp] theorem State.setEv_fault (s : State) (x : List Event) : (s.setEv x).fault = s.fault := rfl
@[simp] theorem State.setEv_fb (s : State) (x : List Event) : (s.setEv x).fb = s.fb := rfl
@[simp] theorem State.setEv_frameCap (s : State) (x : List Event) : (s.setEv x).frameCap = s.frameCap := rfl
@[simp] theorem State.setEv_input (s : State) (x : List Event) : (s.setEv x).input = s.input := rfl
@[simp] theorem State.setEv_out (s : State) (x : List Event) : (s.setEv x).out = s.out := rfl
@[simp] theorem State.setEv_work_p (s : State) (x : List Event) : (s.setEv x).work.p = s.work.p := rfl
@[simp] theorem State.setEv_work_f (s : State) (x : List Event) : (s.setEv x).work.f = s.work.f := rfl
@[simp] theorem State.setEv_work_wf (s : State) (x : List Event) : (s.setEv x).work.wf = s.work.wf := rfl
@[simp] theorem State.setEv_work_pos (s : State) (x : List Event) : (s.setEv x).work.pos = s.work.pos := rfl
@[simp] theorem State.setEv_work_bits (s : State) (x : List Event) : (s.setEv x).work.bits = s.work.bits := rfl
@[simp] theorem State.setEv_work_buf (s : State) (x : List Event) : (s.setEv x).work.buf = s.work.buf := rfl
@[simp] theorem State.setEv_work_acc (s : State) (x : List Event) : (s.setEv x).work.acc = s.work.acc := rfl
@[simp] theorem State.setEv_work_ev (s : State) (x : List Event) : (s.setEv x).work.ev = some x := rfl

@[simp] theorem State.setCursor_phase (s : State) (x : Nat) (y : List Bool) : (s.setCursor x y).phase = s.phase := rfl
@[simp] theorem State.setCursor_fault (s : State) (x : Nat) (y : List Bool) : (s.setCursor x y).fault = s.fault := rfl
@[simp] theorem State.setCursor_fb (s : State) (x : Nat) (y : List Bool) : (s.setCursor x y).fb = s.fb := rfl
@[simp] theorem State.setCursor_frameCap (s : State) (x : Nat) (y : List Bool) : (s.setCursor x y).frameCap = s.frameCap := rfl
@[simp] theorem State.setCursor_input (s : State) (x : Nat) (y : List Bool) : (s.setCursor x y).input = s.input := rfl
@[simp] theorem State.setCursor_out (s : State) (x : Nat) (y : List Bool) : (s.setCursor x y).out = s.out := rfl
@[simp] theorem State.setCursor_work_p (s : State) (x : Nat) (y : List Bool) : (s.setCursor x y).work.p = s.work.p := rfl
@[simp] theorem State.setCursor_work_f (s : State) (x : Nat) (y : List Bool) : (s.setCursor x y).work.f = s.work.f := rfl
@[simp] theorem State.setCursor_work_wf (s : State) (x : Nat) (y : List Bool) : (s.setCursor x y).work.wf = s.work.wf := rfl
@[simp] theorem State.setCursor_work_pos (s : State) (x : Nat) (y : List Bool) : (s.setCursor x y).work.pos = some x := rfl
@[simp] theorem State.setCursor_work_bits (s : State) (x : Nat) (y : List Bool) : (s.setCursor x y).work.bits = some y := rfl
@[simp] theorem State.setCursor_work_buf (s : State) (x : Nat) (y : List Bool) : (s.setCursor x y).work.buf = s.work.buf := rfl
@[simp] theorem State.setCursor_work_acc (s : State) (x : Nat) (y : List Bool) : (s.setCursor x y).work.acc = s.work.acc := rfl
@[simp] theorem State.setCursor_work_ev (s : State) (x : Nat) (y : List Bool) : (s.setCursor x y).work.ev = s.work.ev := rfl

@[simp] theorem beginOp_phase (s : State) : (beginOp s).phase = s.phase := rfl
@[simp] theorem beginOp_fault (s : State) : (beginOp s).fault = s.fault := rfl
@[simp] theorem beginOp_fb (s : State) : (beginOp s).fb = s.fb := rfl
@[simp] theorem beginOp_frameCap (s : State) : (beginOp s).frameCap = s.frameCap := rfl
@[simp] theorem beginOp_work (s : State) : (beginOp s).work = { Work.dead with ev := some [] } := rfl
@[simp] theorem beginOp_input (s : State) : (beginOp s).input = s.input := rfl
@[simp] theorem beginOp_out (s : State) : (beginOp s).out = s.out := rfl

@[simp] theorem restoreReset_phase (s : State) : (restoreReset s).phase = .run := rfl
@[simp] theorem restoreReset_fault (s : State) : (restoreReset s).fault = .none := rfl
@[simp] theorem restoreReset_fb (s : State) : (restoreReset s).fb = [] := rfl
@[simp] theorem restoreReset_frameCap (s : State) : (restoreReset s).frameCap = s.frameCap := rfl
@[simp] theorem restoreReset_work (s : State) : (restoreReset s).work = s.work := rfl
@[simp] theorem restoreReset_input (s : State) : (restoreReset s).input = s.input := rfl
@[simp] theorem restoreReset_out (s : State) : (restoreReset s).out = s.out := rfl

@[simp] theorem Work.dead_p : Work.dead.p = none := rfl
@[simp] theorem Work.dead_f : Work.dead.f = none := rfl
@[simp] theorem Work.dead_wf : Work.dead.wf = none := rfl
@[simp] theorem Work.dead_pos : Work.dead.pos = none := rfl
@[simp] theorem Work.dead_bits : Work.dead.bits = none := rfl
@[simp] theorem Work.dead_buf : Work.dead.buf = none := rfl
@[simp] theorem Work.dead_acc : Work.dead.acc = none := rfl
@[simp] theorem Work.dead_ev : Work.dead.ev = none := rfl

end Sys2Proof.Machine
end

