-- ==== Sys2Proof/Laws/Framer.lean ====
section
/-! SUPPORT. The access forms and predicates of the Framer, in terms of the buffer's last periods. -/

namespace Sys2Proof.Machine

theorem memRead_eq_some {α : Type} {xs ys : List α} {a n : Nat} :
    memRead xs a n = some ys ↔ a + n ≤ xs.length ∧ (xs.drop a).take n = ys := by
  unfold memRead
  split <;> simp_all

theorem memRead_length {α : Type} {xs ys : List α} {a n : Nat} (h : memRead xs a n = some ys) : ys.length = n := by
  obtain ⟨h1, rfl⟩ := memRead_eq_some.1 h
  simp; omega

theorem lastTwo_nil : lastTwo [] = none := rfl

theorem lastTwo_single (p : Period) : lastTwo [p] = none := rfl

theorem lastTwo_append (fb : List Period) (a b : Period) : lastTwo (fb ++ [a, b]) = some (a, b) := by
  simp [lastTwo]

/-- The sync test after an append: the period before is 8 and the one just appended is 3. -/
theorem syncHit_append (fb : List Period) (p : Period) :
    syncHit (fb ++ [p]) = true ↔ fb.getLast? = some 8 ∧ p = 3 := by
  rcases List.eq_nil_or_concat fb with rfl | ⟨init, a, rfl⟩
  · simp [syncHit, lastTwo_single]
  · have : init.concat a ++ [p] = init ++ [a, p] := by simp
    rw [this, syncHit, lastTwo_append]
    simp [syncFirst, syncSecond]

theorem syncHit_nil : syncHit [] = false := rfl

/-- A buffer on which the sync test holds is a frame and the pair. -/
theorem syncHit_iff (fb : List Period) : syncHit fb = true ↔ ∃ f, fb = f ++ [8, 3] := by
  rcases List.eq_nil_or_concat fb with rfl | ⟨init, a, rfl⟩
  · simp [syncHit_nil]
  · rw [List.concat_eq_append, syncHit_append]
    constructor
    · rintro ⟨h, rfl⟩
      obtain ⟨f, rfl⟩ := List.getLast?_eq_some_iff.1 h
      exact ⟨f, by simp⟩
    · rintro ⟨f, h⟩
      have h' : init ++ [a] = (f ++ [8]) ++ [3] := by simpa using h
      obtain ⟨rfl, h3⟩ := List.append_inj' h' rfl
      exact ⟨by simp, by simpa using h3⟩

theorem take_pair (f : List Period) (a b : Period) :
    (f ++ [a, b]).take ((f ++ [a, b]).length - 2) = f := by simp

/-- The Framer's test of R155 is the predicate `SYNC_HIT`. -/
theorem endsInSync_eq (fb : List Period) : endsInSync fb = syncHit fb := by
  rcases List.eq_nil_or_concat fb with rfl | ⟨init, a, rfl⟩
  · rfl
  · rcases List.eq_nil_or_concat init with rfl | ⟨f, b, rfl⟩
    · simp [endsInSync, syncHit, lastTwo_single]
    · have : (f.concat b).concat a = f ++ [b, a] := by simp
      rw [this, syncHit, lastTwo_append]
      simp [endsInSync, syncFirst, syncSecond]

end Sys2Proof.Machine
end

