-- ==== Sys2Proof/Laws/Ops.lean ====
section
/-! SUPPORT. For each shared operation, what it answers where its registers live, and what it can have done where it
answered a next state. -/

namespace Sys2Proof.Machine

/-! ## Sequencing -/

@[simp] theorem andThen_next (s : State) (k : State → Result) : andThen (.next s) k = k s := rfl
@[simp] theorem andThen_fault (r : Fault) (k : State → Result) : andThen (.fault r) k = .fault r := rfl
@[simp] theorem andThen_refused (r : Refusal) (k : State → Result) : andThen (.refused r) k = .refused r := rfl

theorem andThen_eq_next {o : Result} {k : State → Result} {t : State} :
    andThen o k = .next t ↔ ∃ s, o = .next s ∧ k s = .next t := by
  cases o <;> simp

@[simp] theorem withLive_some {α : Type} (a : α) (r : WorkReg) (k : α → Result) : withLive (some a) r k = k a := rfl
@[simp] theorem withLive_none {α : Type} (r : WorkReg) (k : α → Result) :
    withLive none r k = .fault (.deadRegister r) := rfl

theorem withLive_eq_next {α : Type} {v : Option α} {r : WorkReg} {k : α → Result} {t : State} :
    withLive v r k = .next t ↔ ∃ a, v = some a ∧ k a = .next t := by
  cases v <;> simp

/-! ## The span of a step -/

theorem emit_live {e : Event} {s : State} {ev : List Event} (h : s.work.ev = some ev) :
    emit e s = .next (s.setEv (ev ++ [e])) := by simp [emit, h]

theorem emit_next {e : Event} {s t : State} (h : emit e s = .next t) :
    ∃ ev, s.work.ev = some ev ∧ t = s.setEv (ev ++ [e]) := by
  obtain ⟨ev, h1, h2⟩ := withLive_eq_next.1 h
  exact ⟨ev, h1, by simpa using h2.symm⟩

theorem endOp_live {s : State} {ev : List Event} (h : s.work.ev = some ev) :
    endOp s = .next ((s.setOut (s.out ++ ev)).setWork Work.dead) := by simp [endOp, h]

theorem endOp_next {s t : State} (h : endOp s = .next t) :
    ∃ ev, s.work.ev = some ev ∧ t = (s.setOut (s.out ++ ev)).setWork Work.dead := by
  obtain ⟨ev, h1, h2⟩ := withLive_eq_next.1 h
  exact ⟨ev, h1, by simpa using h2.symm⟩

theorem raiseFault_next {c : FaultCode} {s t : State} (h : raiseFault c s = .next t) :
    ∃ ev, s.work.ev = some ev ∧ t = ((s.setFault c).setOut (s.out ++ ev)).setWork Work.dead :=
  endOp_next h

theorem raiseFault_beginOp (c : FaultCode) (s : State) :
    raiseFault c (beginOp s) = .next ((s.setFault c).setWork Work.dead) := by
  simp [raiseFault, endOp, beginOp, State.setFault, State.setOut, State.setWork]

/-! ## The components -/

theorem quantizeOp_next {b : Byte} {s t : State} (h : quantizeOp b s = .next t) : t = s.setP (quantize b) := by
  simpa [quantizeOp] using h.symm

theorem appendOp_live {s : State} {p : Period} (h : s.work.p = some p) :
    appendOp s = .next (s.setFb (s.fb ++ [p])) := by simp [appendOp, h]

theorem appendOp_next {s t : State} (h : appendOp s = .next t) :
    ∃ p, s.work.p = some p ∧ t = s.setFb (s.fb ++ [p]) := by
  obtain ⟨p, h1, h2⟩ := withLive_eq_next.1 h
  exact ⟨p, h1, by simpa using h2.symm⟩

theorem renderOp_live {s : State} {f : List Period} (h : s.work.f = some f) :
    renderOp s = .next (s.setWf (renderFrame f)) := by simp [renderOp, h]

theorem renderOp_next {s t : State} (h : renderOp s = .next t) :
    ∃ f, s.work.f = some f ∧ t = s.setWf (renderFrame f) := by
  obtain ⟨f, h1, h2⟩ := withLive_eq_next.1 h
  exact ⟨f, h1, by simpa using h2.symm⟩

theorem diagOp_live {s : State} {wf : List Symbol} {ev : List Event} (h : s.work.wf = some wf)
    (he : s.work.ev = some ev) : diagOp s = .next (s.setEv (ev ++ [.diag wf.length])) := by
  simp [diagOp, h, emit_live he]

theorem diagOp_next {s t : State} (h : diagOp s = .next t) :
    ∃ wf ev, s.work.wf = some wf ∧ s.work.ev = some ev ∧ t = s.setEv (ev ++ [.diag wf.length]) := by
  obtain ⟨wf, h1, h2⟩ := withLive_eq_next.1 h
  obtain ⟨ev, h3, h4⟩ := emit_next h2
  exact ⟨wf, ev, h1, h3, h4⟩

theorem codeWordOp_live {r : CodeRow} {s : State} {wf : List Symbol} {pos : Nat} {bits : List Bool}
    (hw : s.work.wf = some wf) (hp : s.work.pos = some pos) (hb : s.work.bits = some bits) :
    codeWordOp r s = .next (if matchRow r wf pos then s.setCursor (pos + r.len) (bits ++ r.bits) else s) := by
  simp [codeWordOp, hw, hp, hb]

theorem codeWordOp_next {r : CodeRow} {s t : State} (h : codeWordOp r s = .next t) :
    ∃ wf pos bits, s.work.wf = some wf ∧ s.work.pos = some pos ∧ s.work.bits = some bits ∧
      t = if matchRow r wf pos then s.setCursor (pos + r.len) (bits ++ r.bits) else s := by
  obtain ⟨wf, h1, h⟩ := withLive_eq_next.1 h
  obtain ⟨pos, h2, h⟩ := withLive_eq_next.1 h
  obtain ⟨bits, h3, h⟩ := withLive_eq_next.1 h
  exact ⟨wf, pos, bits, h1, h2, h3, by simpa using h.symm⟩

theorem stopOp_live {s : State} {wf : List Symbol} {pos : Nat} {bits : List Bool}
    (hw : s.work.wf = some wf) (hp : s.work.pos = some pos) (hb : s.work.bits = some bits) :
    stopOp s = .next s := by simp [stopOp, hw, hp, hb]

theorem stopOp_next {s t : State} (h : stopOp s = .next t) : t = s := by
  obtain ⟨_, _, h⟩ := withLive_eq_next.1 h
  obtain ⟨_, _, h⟩ := withLive_eq_next.1 h
  obtain ⟨_, _, h⟩ := withLive_eq_next.1 h
  simpa using h.symm

theorem rllDecodeOp_live {s : State} {wf : List Symbol} (h : s.work.wf = some wf) :
    rllDecodeOp s = .next (s.setCursor (rllDecodeFrom wf).1 (rllDecodeFrom wf).2) := by simp [rllDecodeOp, h]

theorem rllDecodeOp_next {s t : State} (h : rllDecodeOp s = .next t) :
    ∃ wf, s.work.wf = some wf ∧ t = s.setCursor (rllDecodeFrom wf).1 (rllDecodeFrom wf).2 := by
  obtain ⟨wf, h1, h2⟩ := withLive_eq_next.1 h
  exact ⟨wf, h1, by simpa using h2.symm⟩

theorem assembleOp_live {s : State} {bits : List Bool} (h : s.work.bits = some bits) :
    assembleOp s = .next (s.setBuf (assembleBits bits)) := by simp [assembleOp, h]

theorem assembleOp_next {s t : State} (h : assembleOp s = .next t) :
    ∃ bits, s.work.bits = some bits ∧ t = s.setBuf (assembleBits bits) := by
  obtain ⟨bits, h1, h2⟩ := withLive_eq_next.1 h
  exact ⟨bits, h1, by simpa using h2.symm⟩

theorem afterCodeWord_next {i : Instr} {s t : State} (h : afterCodeWord i s = .next t) :
    (i = .rllStop ∧ ∃ bits, s.work.bits = some bits ∧ t = s.setBuf (assembleBits bits)) ∨
    (i ≠ .rllStop ∧ t = s) := by
  unfold afterCodeWord at h
  split at h
  · exact .inl ⟨‹_›, assembleOp_next h⟩
  · exact .inr ⟨‹_›, by simpa using h.symm⟩

theorem engineOp_next {e : Engine} {msg : List Byte} {s t : State} (h : engineOp e msg s = .next t) :
    t = s.setAcc (crc e msg) := by simpa [engineOp] using h.symm

/-! ## The Classifier -/

theorem tagGt_cons (x : Byte) (buf : List Byte) : tagGt (x :: buf) = decide (0xF8 < x.toNat) := by
  simp [tagGt, tagDm, BitVec.lt_def]

theorem tagEq_cons (x : Byte) (buf : List Byte) : tagEq (x :: buf) = decide (x = 0xF8) := by
  simp only [tagEq, tagDm, List.head?_cons]
  rfl

theorem emitRecord_live {tag : RecTag} {cap digits : Nat} {check : Check} {buf : List Byte} {s : State}
    {ev : List Event} (h : s.work.ev = some ev) : emitRecord tag cap digits check buf s =
      .next (s.setEv (ev ++ [.record ⟨tag, buf.length, digits, check, buf.take cap⟩])) := emit_live h

theorem checkedRecordOp_live {e : Engine} {tag : RecTag} {cap digits : Nat} {buf : List Byte} {s : State}
    {ev : List Event} (h : s.work.ev = some ev) : checkedRecordOp e tag cap digits buf s =
      .next ((s.setAcc (crc e (preamble :: buf.take cap))).setEv (ev ++
        [.record ⟨tag, buf.length, digits, (crc e (preamble :: buf.take cap)).setWidth 56, buf.take cap⟩])) := by
  simp only [checkedRecordOp, engineOp, andThen_next, checkedMessage, State.setAcc_work_acc, withLive_some]
  exact emitRecord_live (by simpa using h)

theorem State.setWork_of_eq {s : State} {w : Work} (h : s.work = w) : s = s.setWork w := by subst h; rfl

theorem classifyOp_nil {s : State} (h : s.work.buf = some []) : classifyOp s = .next s := by
  simp [classifyOp, h, recordEmpty, recNoneOp]

theorem classifyOp_dm {s : State} {x : Byte} {rest : List Byte} (h : s.work.buf = some (x :: rest)) (h1 : x = 0xF8) :
    classifyOp s = checkedRecordOp engine56 .dm capDm 14 (x :: rest) s := by
  have hx : tagEq (x :: rest) = true := by rw [tagEq_cons]; exact decide_eq_true h1
  simp [classifyOp, h, recordEmpty, hx, recDmOp]

theorem classifyOp_am {s : State} {x : Byte} {rest : List Byte} (h : s.work.buf = some (x :: rest)) (h1 : ¬ x = 0xF8)
    (h2 : 0xF8 < x.toNat) : classifyOp s = checkedRecordOp engine16 .am capAm 4 (x :: rest) s := by
  have hx : tagEq (x :: rest) = false := by rw [tagEq_cons]; exact decide_eq_false h1
  have hy : tagGt (x :: rest) = true := by rw [tagGt_cons]; exact decide_eq_true h2
  simp [classifyOp, h, recordEmpty, hx, hy, recAmOp]

theorem classifyOp_unk {s : State} {x : Byte} {rest : List Byte} (h : s.work.buf = some (x :: rest)) (h1 : ¬ x = 0xF8)
    (h2 : ¬ 0xF8 < x.toNat) : classifyOp s = emitRecord .unk capUnk 1 sentinel (x :: rest) s := by
  have hx : tagEq (x :: rest) = false := by rw [tagEq_cons]; exact decide_eq_false h1
  have hy : tagGt (x :: rest) = false := by rw [tagGt_cons]; exact decide_eq_false h2
  simp [classifyOp, h, recordEmpty, hx, hy, recUnkOp]

/-- The record of a state whose EV is live, classified: what `CLASSIFY` does, whatever the class. -/
theorem classifyOp_live {s : State} {buf : List Byte} {ev : List Event} (h : s.work.buf = some buf)
    (he : s.work.ev = some ev) : classifyOp s = .next (s.setWork
      { s.work with acc := recordAcc buf s.work.acc, ev := some (ev ++ (recordEvent buf).toList) }) := by
  cases buf with
  | nil =>
    rw [classifyOp_nil h]
    simp only [recordAcc, recordEvent, Option.toList_none, List.append_nil, ← he]
    rfl
  | cons x rest =>
    by_cases h1 : x = 0xF8
    · rw [classifyOp_dm h h1, checkedRecordOp_live he]
      simp only [recordAcc, recordEvent, if_pos h1]
      rfl
    · by_cases h2 : 0xF8 < x.toNat
      · rw [classifyOp_am h h1 h2, checkedRecordOp_live he]
        simp only [recordAcc, recordEvent, if_neg h1, if_pos h2]
        rfl
      · rw [classifyOp_unk h h1 h2, emitRecord_live he]
        simp only [recordAcc, recordEvent, if_neg h1, if_neg h2]
        rfl

/-! ## The pipeline and the Framer -/

/-- What `PROCESSFRAME` does with a frame: the working registers take each stage's output, nothing else changes. -/
theorem processFrameOp_live {s : State} {f : List Period} {ev : List Event} (h : s.work.f = some f)
    (he : s.work.ev = some ev) : processFrameOp s = .next (s.setWork (frameWork f s.work)) := by
  unfold processFrameOp
  rw [renderOp_live h, andThen_next, diagOp_live (wf := renderFrame f) (ev := ev) rfl (by simpa using he), andThen_next,
    rllDecodeOp_live (wf := renderFrame f) rfl, andThen_next,
    assembleOp_live (bits := (rllDecodeFrom (renderFrame f)).2) rfl, andThen_next,
    classifyOp_live (buf := frameRecord f) (ev := ev ++ [.diag (renderFrame f).length]) rfl rfl]
  simp [frameWork, frameEvents, frameRecord, he, State.setWf, State.setEv, State.setCursor, State.setBuf]

theorem processFrameOp_next {s t : State} (h : processFrameOp s = .next t) :
    ∃ f ev, s.work.f = some f ∧ s.work.ev = some ev ∧ t = s.setWork (frameWork f s.work) := by
  obtain ⟨s1, h1, h2⟩ := andThen_eq_next.1 h
  obtain ⟨s2, h3, _⟩ := andThen_eq_next.1 h2
  obtain ⟨f, hf, rfl⟩ := renderOp_next h1
  obtain ⟨wf, ev, _, he, _⟩ := diagOp_next h3
  have he' : s.work.ev = some ev := by simpa using he
  exact ⟨f, ev, hf, he', by simpa [processFrameOp_live hf he'] using h.symm⟩

theorem emitFrameOp_live {s : State} {f : List Period} {ev : List Event} (he : s.work.ev = some ev) :
    emitFrameOp f s = .next ((s.setFb []).setWork (frameWork f { s.work with f := some f })) := by
  unfold emitFrameOp
  rw [processFrameOp_live (f := f) (ev := ev) rfl (by simpa using he)]
  rfl

theorem emitFrameOp_next {s t : State} {f : List Period} (h : emitFrameOp f s = .next t) :
    ∃ ev, s.work.ev = some ev ∧ t = (s.setFb []).setWork (frameWork f { s.work with f := some f }) := by
  obtain ⟨_, ev, _, he, _⟩ := processFrameOp_next h
  have he' : s.work.ev = some ev := by simpa using he
  exact ⟨ev, he', by simpa [emitFrameOp_live he'] using h.symm⟩

theorem syncOp_hit {s : State} {fb : List Period} {ev : List Event} (hf : s.fb = fb) (h : syncHit fb = true)
    (he : s.work.ev = some ev) : syncOp s = .next ((s.setFb []).setWork
      (frameWork (fb.take (fb.length - 2)) { s.work with f := some (fb.take (fb.length - 2)) })) := by
  subst hf
  rw [syncOp, if_pos h, emitFrameOp_live he]

theorem syncOp_miss {s : State} {fb : List Period} (hf : s.fb = fb) (h : syncHit fb = false) : syncOp s = .next s := by
  subst hf
  rw [syncOp, if_neg (by simp [h])]

theorem syncOp_next {s t : State} (h : syncOp s = .next t) :
    (syncHit s.fb = false ∧ t = s) ∨ (syncHit s.fb = true ∧ ∃ ev, s.work.ev = some ev ∧
      t = (s.setFb []).setWork (frameWork (s.fb.take (s.fb.length - 2))
        { s.work with f := some (s.fb.take (s.fb.length - 2)) })) := by
  cases hs : syncHit s.fb with
  | false => exact .inl ⟨rfl, by simpa [syncOp_miss rfl hs] using h.symm⟩
  | true =>
    rw [syncOp, if_pos hs] at h
    exact .inr ⟨rfl, emitFrameOp_next h⟩

/-- The step of `EOS` and of a sync hit ends: the frame's events leave, the registers die. -/
theorem endOp_frame {s : State} {f : List Period} {w : Work} {ev : List Event} (he : w.ev = some ev) :
    endOp (s.setWork (frameWork f w)) = .next ((s.setOut (s.out ++ (ev ++ frameEvents f))).setWork Work.dead) :=
  endOp_live (by simp [frameWork, he])

/-! ## The host operations -/

/-- `SAMPLE b`, accepted and with room in the buffer. -/
theorem sampleOp_run {s : State} {b : Byte} (ha : s.accepting = true) (hf : s.full = false) :
    sampleOp b s = .next (
      if syncHit (s.fb ++ [quantize b]) then
        ((s.setFb []).setOut (s.out ++ frameEvents ((s.fb ++ [quantize b]).take ((s.fb ++ [quantize b]).length - 2)))).setWork
          Work.dead
      else (s.setFb (s.fb ++ [quantize b])).setWork Work.dead) := by
  simp only [sampleOp, ha, hf, if_true, Bool.false_eq_true, if_false, quantizeOp, andThen_next]
  rw [appendOp_live (p := quantize b) rfl, andThen_next]
  cases hs : syncHit (s.fb ++ [quantize b]) with
  | true =>
    rw [syncOp_hit (fb := s.fb ++ [quantize b]) (ev := []) rfl hs rfl, andThen_next, endOp_frame (ev := []) rfl]
    simp only [List.nil_append]
    rfl
  | false =>
    rw [syncOp_miss (fb := s.fb ++ [quantize b]) rfl hs, andThen_next, endOp_live (ev := []) rfl]
    simp [State.setFb, State.setP, State.setOut, State.setWork, beginOp]

theorem sampleOp_full {s : State} {b : Byte} (ha : s.accepting = true) (hf : s.full = true) :
    sampleOp b s = .next ((s.setFault .frameOverflow).setWork Work.dead) := by
  simp only [sampleOp, ha, hf, if_true, raiseFault_beginOp]

theorem sampleOp_refused {s : State} {b : Byte} (ha : s.accepting = false) :
    sampleOp b s = .refused (.refusedInState s.phase s.fault) := by
  simp [sampleOp, ha]

theorem eosOp_run {s : State} (ha : s.accepting = true) :
    eosOp s = .next ((((s.setPhase .done).setFb []).setOut (s.out ++ frameEvents s.fb)).setWork Work.dead) := by
  simp only [eosOp, ha, if_true, flushOp]
  rw [emitFrameOp_live (ev := []) rfl, andThen_next, endOp_frame (ev := []) rfl]
  simp only [List.nil_append]; rfl

theorem eosOp_refused {s : State} (ha : s.accepting = false) :
    eosOp s = .refused (.refusedInState s.phase s.fault) := by
  simp [eosOp, ha]

/-- `SAMPLE` answers a next state in one of three ways. -/
theorem sampleOp_next {s t : State} {b : Byte} (h : sampleOp b s = .next t) :
    s.accepting = true ∧
    ((s.full = true ∧ t = (s.setFault .frameOverflow).setWork Work.dead) ∨
     (s.full = false ∧ syncHit (s.fb ++ [quantize b]) = true ∧
       t = ((s.setFb []).setOut (s.out ++
         frameEvents ((s.fb ++ [quantize b]).take ((s.fb ++ [quantize b]).length - 2)))).setWork Work.dead) ∨
     (s.full = false ∧ syncHit (s.fb ++ [quantize b]) = false ∧
       t = (s.setFb (s.fb ++ [quantize b])).setWork Work.dead)) := by
  cases ha : s.accepting with
  | false => simp [sampleOp_refused ha] at h
  | true =>
    refine ⟨rfl, ?_⟩
    cases hf : s.full with
    | true => exact .inl ⟨rfl, by simpa [sampleOp_full ha hf] using h.symm⟩
    | false =>
      rw [sampleOp_run ha hf] at h
      cases hs : syncHit (s.fb ++ [quantize b]) with
      | true => exact .inr (.inl ⟨rfl, rfl, by simpa [hs] using h.symm⟩)
      | false => exact .inr (.inr ⟨rfl, rfl, by simpa [hs] using h.symm⟩)

theorem eosOp_next {s t : State} (h : eosOp s = .next t) : s.accepting = true ∧
    t = (((s.setPhase .done).setFb []).setOut (s.out ++ frameEvents s.fb)).setWork Work.dead := by
  cases ha : s.accepting with
  | false => simp [eosOp_refused ha] at h
  | true => exact ⟨rfl, by simpa [eosOp_run ha] using h.symm⟩

theorem periodOp_next {n : Period} {s t : State} (h : periodOp n s = .next t) :
    ∃ b, canon n = some b ∧ sampleOp b s = .next t := by
  unfold periodOp at h
  split at h
  · exact ⟨_, ‹_›, h⟩
  · cases h

theorem periodsOp_next {n : Period} {ns : List Period} {s t : State} (h : periodsOp (n :: ns) s = .next t) :
    ∃ u, periodOp n s = .next u ∧ periodsOp ns u = .next t := andThen_eq_next.1 h

end Sys2Proof.Machine
end

