-- ==== Sys2Proof/Laws/PerInstr.lean ====
section
/-! SUPPORT. Families of statements made for each operation. `EncodingFormat`: every encoding of an operation stands
where the format column of the opcode table says, a pseudo-operation's on the input port (30_encoding.md R80, R112). -/

namespace Sys2Proof.Laws.EncodingFormat

/-- Where the encodings of a format stand: those of a pseudo-operation are HOSTOP words. -/
def place : Format → Format
  | .pseudo => .hostop
  | f => f

/-- Every encoding of i stands where its format says. -/
def Statement (i : Instr) : Prop := ∀ (u : Byte) (e : Encoded), e ∈ encodeWith u i → e.format = place i.format

theorem nop : Statement .nop := by simp [Statement, encodeWith, Encoded.format, Instr.format, place]
theorem sample (b : Byte) : Statement (.sample b) := by
  simp [Statement, encodeWith, Encoded.format, Instr.format, place]
theorem eos : Statement .eos := by simp [Statement, encodeWith, Encoded.format, Instr.format, place]
theorem reset : Statement .reset := by simp [Statement, encodeWith, Encoded.format, Instr.format, place]
theorem period (n : Period) : Statement (.period n) := by
  intro u e he
  obtain ⟨w, _, rfl⟩ := List.mem_map.1 he
  rfl
theorem periods (ns : List Period) : Statement (.periods ns) := by
  intro u e he
  obtain ⟨w, _, rfl⟩ := List.mem_map.1 he
  rfl
theorem sync : Statement .sync := by simp [Statement, encodeWith, Encoded.format, Instr.format, place]
theorem framerSync : Statement .framerSync := by simp [Statement, encodeWith, Encoded.format, Instr.format, place]
theorem rll10 : Statement .rll10 := by
  simp [Statement, encodeWith, CodeRow.window, Encoded.format, Instr.format, place]
theorem rll11 : Statement .rll11 := by
  simp [Statement, encodeWith, CodeRow.window, Encoded.format, Instr.format, place]
theorem rll000 : Statement .rll000 := by
  simp [Statement, encodeWith, CodeRow.window, Encoded.format, Instr.format, place]
theorem rll010 : Statement .rll010 := by
  simp [Statement, encodeWith, CodeRow.window, Encoded.format, Instr.format, place]
theorem rll011 : Statement .rll011 := by
  simp [Statement, encodeWith, CodeRow.window, Encoded.format, Instr.format, place]
theorem rll0010 : Statement .rll0010 := by
  simp [Statement, encodeWith, CodeRow.window, Encoded.format, Instr.format, place]
theorem rll0011 : Statement .rll0011 := by
  simp [Statement, encodeWith, CodeRow.window, Encoded.format, Instr.format, place]
theorem rllStop : Statement .rllStop := by simp [Statement, encodeWith, Encoded.format, Instr.format, place]
theorem recNone : Statement .recNone := by simp [Statement, encodeWith, Encoded.format, Instr.format, place]
theorem recDm : Statement .recDm := by simp [Statement, encodeWith, Encoded.format, Instr.format, place]
theorem recAm : Statement .recAm := by simp [Statement, encodeWith, Encoded.format, Instr.format, place]
theorem recUnk : Statement .recUnk := by simp [Statement, encodeWith, Encoded.format, Instr.format, place]
theorem q (b : Byte) : Statement (.q b) := by simp [Statement, encodeWith]
theorem framerAppend : Statement .framerAppend := by simp [Statement, encodeWith]
theorem framerFlush : Statement .framerFlush := by simp [Statement, encodeWith]
theorem render : Statement .render := by simp [Statement, encodeWith]
theorem rllDecode : Statement .rllDecode := by simp [Statement, encodeWith]
theorem assemble : Statement .assemble := by simp [Statement, encodeWith]
theorem classify : Statement .classify := by simp [Statement, encodeWith]
theorem crc16 (msg : List Byte) : Statement (.crc16 msg) := by simp [Statement, encodeWith]
theorem crc56 (msg : List Byte) : Statement (.crc56 msg) := by simp [Statement, encodeWith]
theorem processFrame : Statement .processFrame := by simp [Statement, encodeWith]

end Sys2Proof.Laws.EncodingFormat
end

