-- ==== Sys2Proof/Laws/Step.lean ====
section
/-! SUPPORT. Where a step fetches, and what it can have done. -/

namespace Sys2Proof.Machine

theorem fetchSite_tag {s : State} {buf : List Byte} (h : s.work.buf = some buf) : fetchSite s = .tag buf.head? := by
  simp [fetchSite, h]

theorem fetchSite_cursor {s : State} {wf : List Symbol} {pos : Nat} (hb : s.work.buf = none) (hw : s.work.wf = some wf)
    (hp : s.work.pos = some pos) : fetchSite s = .cursor (windowWord wf pos) (windowAvail wf pos) := by
  simp [fetchSite, hb, hw, hp]

theorem fetchSite_dead {s : State} (h : s.work = Work.dead) : fetchSite s = portSite s.input := by
  simp [fetchSite, framerSite, h]

/-- What a step can have done: it waited, or it ran the operation of one fetch site and what follows there. -/
theorem step_next {s t : State} (h : step s = .next t) :
    (fetchSite s = .waiting ∧ t = s) ∨
    (∃ w rest, fetchSite s = .port w rest ∧ exec (decodeHostOp w) (s.setInput rest) = .next t) ∨
    (∃ w avail u, fetchSite s = .cursor w avail ∧ exec (decodeWindow w avail) s = .next u ∧
      afterCodeWord (decodeWindow w avail) u = .next t) ∨
    (∃ b u, fetchSite s = .tag b ∧ exec (decodeTag b) s = .next u ∧ endOp u = .next t) ∨
    (∃ w u, fetchSite s = .pair w ∧
      (pairInstr w = none ∧ u = s ∨ ∃ i, pairInstr w = some i ∧ exec i s = .next u) ∧ endOp u = .next t) := by
  unfold step at h
  split at h
  · exact .inl ⟨‹_›, by simpa using h.symm⟩
  · exact .inr (.inl ⟨_, _, ‹_›, h⟩)
  · obtain ⟨u, h1, h2⟩ := andThen_eq_next.1 h
    exact .inr (.inr (.inl ⟨_, _, u, ‹_›, h1, h2⟩))
  · obtain ⟨u, h1, h2⟩ := andThen_eq_next.1 h
    exact .inr (.inr (.inr (.inl ⟨_, u, ‹_›, h1, h2⟩)))
  · split at h
    · obtain ⟨u, h1, h2⟩ := andThen_eq_next.1 h
      exact .inr (.inr (.inr (.inr ⟨_, u, ‹_›, .inr ⟨_, ‹_›, h1⟩, h2⟩)))
    · exact .inr (.inr (.inr (.inr ⟨_, s, ‹_›, .inl ⟨‹_›, rfl⟩, h⟩)))

/-- A HOSTOP word decodes to one of the four host operations. -/
theorem decodeHostOp_cases (w : HostWord) : decodeHostOp w = .nop ∨ decodeHostOp w = .sample (hostData w) ∨
    decodeHostOp w = .eos ∨ decodeHostOp w = .reset := by
  unfold decodeHostOp
  split
  · exact .inl rfl
  · split
    · exact .inr (.inl rfl)
    · split
      · exact .inr (.inr (.inl rfl))
      · exact .inr (.inr (.inr rfl))

end Sys2Proof.Machine
end

