-- ==== Sys2Proof/Machine/Text.lean ====
section
/-! DEFINITION. The textual forms: the informative output line of an event (30_encoding.md R110) and the syntax of a
host-operation line (R111, R112). They are no part of the block: no step uses them. -/

namespace Sys2Proof.Machine

/-! ## Output lines -/

/-- `hex_1` of a number below 16, lower case (R10, R110). -/
def hexDigit (n : Nat) : Char := "0123456789abcdef".toList.getD n '?'

/-- `hex_k(v)`: exactly k lower-case hexadecimal digits, most significant first (R10). -/
def hexDigits : Nat → Nat → List Char
  | 0, _ => []
  | k + 1, v => hexDigit (v / 16 ^ k % 16) :: hexDigits k v

/-- A length in decimal (R110, D18). -/
def decimal (n : Nat) : List Char := Nat.toDigits 10 n

/-- The printed record class (R98). -/
def RecTag.text : RecTag → List Char
  | .dm => ['D', 'M']
  | .am => ['A', 'M']
  | .unk => ['?', '?']

/-- The output line of an event: `4 <wf_len>`, or `6 <TAG> <byte_len> <check_value> <hex_payload>`, one space between
fields (R110, D18, D19). -/
def Event.line : Event → List Char
  | .diag n => '4' :: ' ' :: decimal n
  | .record r =>
    '6' :: ' ' :: r.tag.text ++ [' '] ++ decimal r.byteLen ++ [' '] ++
      hexDigits r.checkDigits r.check.toNat ++ [' '] ++ r.payload.flatMap fun b => hexDigits 2 b.toNat

/-! ## Host-operation lines -/

/-- What a line of host-operation text stands for. -/
inductive Line where
  /-- Nothing, or only a comment. -/
  | blank
  /-- One operation. -/
  | op (i : Instr)
  /-- No line of the syntax. -/
  | malformed
deriving DecidableEq, Repr

/-- The words of a line: runs of characters other than space and tab. -/
def lineWords (cs : List Char) : List (List Char) :=
  let step := fun (c : Char) (r : List Char × List (List Char)) =>
    if c = ' ' ∨ c = '\t' then ([], if r.1 = [] then r.2 else r.1 :: r.2) else (c :: r.1, r.2)
  let r := cs.foldr step ([], [])
  if r.1 = [] then r.2 else r.1 :: r.2

/-- The value of a digit, upper or lower case. -/
def digitValue (c : Char) : Option Nat :=
  if '0'.toNat ≤ c.toNat ∧ c.toNat ≤ '9'.toNat then some (c.toNat - '0'.toNat)
  else if 'a'.toNat ≤ c.toNat ∧ c.toNat ≤ 'f'.toNat then some (c.toNat - 'a'.toNat + 10)
  else if 'A'.toNat ≤ c.toNat ∧ c.toNat ≤ 'F'.toNat then some (c.toNat - 'A'.toNat + 10)
  else none

/-- Digits in a base, most significant first; none for a digit the base does not have. -/
def digitsValue (base : Nat) (cs : List Char) : Option Nat :=
  cs.foldl
    (fun n c => match n, digitValue c with
      | some n, some d => if d < base then some (base * n + d) else none
      | _, _ => none)
    (some 0)

/-- A number in decimal, or in hexadecimal after `0x` (R111). -/
def numberValue : List Char → Option Nat
  | [] => none
  | ['0', 'x'] => none
  | '0' :: 'x' :: ds => digitsValue 16 ds
  | ds => digitsValue 10 ds

/-- A sample byte, 0 to 255 (R83, R111). -/
def byteOperand (cs : List Char) : Option Byte :=
  (numberValue cs).bind fun n => if n < 256 then some (BitVec.ofNat 8 n) else none

/-- A period operand, 0 to 20 (R112). -/
def periodOperand (cs : List Char) : Option Period :=
  (numberValue cs).bind fun n => if n ≤ periodMax then some (BitVec.ofNat 5 n) else none

/-- The operation of a mnemonic and its operands (R111, R112). -/
def parseWords : List (List Char) → Option Instr
  | [] => none
  | m :: args =>
    if m = "NOP".toList then if args = [] then some .nop else none
    else if m = "EOS".toList then if args = [] then some .eos else none
    else if m = "RESET".toList then if args = [] then some .reset else none
    else if m = "SYNC".toList then if args = [] then some .sync else none
    else if m = "SAMPLE".toList then match args with
      | [a] => (byteOperand a).map .sample
      | _ => none
    else if m = "PERIOD".toList then match args with
      | [a] => (periodOperand a).map .period
      | _ => none
    else if m = "PERIODS".toList then if args = [] then none else (args.mapM periodOperand).map .periods
    else none

/-- One line: the text before `;`, a mnemonic and its operands (R111). -/
def parseLine (cs : List Char) : Line :=
  match lineWords (cs.takeWhile (· ≠ ';')) with
  | [] => .blank
  | ws => match parseWords ws with
    | some i => .op i
    | none => .malformed

/-- The HOSTOP words of an operation, in order: the encoding of its line (R111, R112). -/
def hostWords (i : Instr) : List HostWord :=
  (encode i).filterMap fun e => match e with
    | .hostop w => some w
    | _ => none

end Sys2Proof.Machine
end

