-- ==== Sys2Proof/Tests/Slice0.lean ====
section
/-! SUPPORT. Tests: the well-formedness smoke, the decoding of words written out from the spec's encodings, one or two
vectors of 95_test_vectors.md for each operation, and for each statement with hypotheses a state that meets them. -/

namespace Sys2Proof.Tests
open Sys2Proof Sys2Proof.Machine

/-! ## Builders -/

/-- The reset state with these periods in the buffer and these words on the input port. -/
def st (fb : List Period) (ws : List HostWord) : State := { State.reset with fb := fb, input := ws }

/-- The reset state with these working registers. -/
def inStep (w : Work) : State := { State.reset with work := w }

/-- A waveform of bits, filler 0 and separator 1, at the cursor 2 with no bits decoded (R186). -/
def decoding (wf : List Nat) : State :=
  inStep { Work.dead with wf := some (pat wf), pos := some 2, bits := some [], ev := some [] }

/-- A record that waits for its class, with no event yet. -/
def record (buf : List Byte) : State := inStep { Work.dead with buf := some buf, ev := some [] }

/-- The outcome is a next state that passes the check. -/
def nextHas (o : Result) (p : State → Bool) : Bool :=
  match o with
  | .next t => p t
  | _ => false

/-- The outcome is a refusal. -/
def isRefused (o : Result) : Bool :=
  match o with
  | .refused _ => true
  | _ => false

/-- The outcome is the fault of a dead register. -/
def isDead (o : Result) (r : WorkReg) : Bool :=
  match o with
  | .fault (.deadRegister r') => r == r'
  | _ => false

/-! ## Well-formedness -/

theorem test_wf_period_20 : (Instr.period 20).wf = true := by decide
theorem test_wf_period_21_refused : (Instr.period 21).wf = false := by decide
theorem test_wf_periods_refuse_one_bad : (Instr.periods [3, 31, 4]).wf = false := by decide
theorem test_wf_periods_empty : (Instr.periods []).wf = true := by decide

/-! ## Decoding: the words of 30_encoding.md R82, R85, R90, R95 and R112, written out bit by bit -/

theorem test_decode_nop : decodeHostOp 0b0011111111 = .nop := by decide
theorem test_decode_sample : decodeHostOp 0b0101100100 = .sample 0x64 := by decide
theorem test_decode_eos : decodeHostOp 0b1000000000 = .eos := by decide
theorem test_decode_reset : decodeHostOp 0b1100000001 = .reset := by decide
theorem test_decode_framer_sync : decodePair 0b0100000011 = some .framerSync := by decide
theorem test_decode_pair_other : decodePair 0b0001101000 = none := by decide
theorem test_decode_rll10 : decodeWindow 0b01001011 4 = .rll10 := by decide
theorem test_decode_rll11 : decodeWindow 0b10000000 8 = .rll11 := by decide
theorem test_decode_rll000 : decodeWindow 0b10010011 6 = .rll000 := by decide
theorem test_decode_rll010 : decodeWindow 0b00010000 6 = .rll010 := by decide
theorem test_decode_rll011 : decodeWindow 0b00100001 7 = .rll011 := by decide
theorem test_decode_rll0010 : decodeWindow 0b00100100 8 = .rll0010 := by decide
theorem test_decode_rll0011 : decodeWindow 0b00001000 8 = .rll0011 := by decide
theorem test_decode_rll0011_cut : decodeWindow 0b00001000 7 = .rllStop := by decide
/-- The run-length-legal windows that match nothing (R91). -/
theorem test_decode_stop : ([0x00, 0x01, 0x02, 0x04, 0x09] : List WindowWord).all
    (fun w => decodeWindow w 8 == .rllStop) = true := by decide
theorem test_decode_rec_none : decodeTag none = .recNone := by decide
theorem test_decode_rec_dm : decodeTag (some 0b11111000) = .recDm := by decide
theorem test_decode_rec_am : decodeTag (some 0b11111001) = .recAm ∧ decodeTag (some 0b11111111) = .recAm := by decide
theorem test_decode_rec_unk : decodeTag (some 0b11110111) = .recUnk ∧ decodeTag (some 0) = .recUnk := by decide
/-- `PERIOD 8` is the word 0101100100, `PERIOD 3` the word 0100100001 (R112): they decode to their SAMPLEs. -/
theorem test_decode_period : periodWord 8 = some 0b0101100100 ∧ periodWord 3 = some 0b0100100001 := by decide
theorem test_decode_periods : (encode (.periods [20, 0])).map decode =
    [.ok (.sample 0xFF), .ok (.sample 0x00)] := by rfl
theorem test_decode_sync : encode .sync = [.hostop 0b0101100100, .hostop 0b0100100001] := by decide
theorem test_encode_pipeline_functions : [Instr.q 3, .framerAppend, .framerFlush, .render, .rllDecode, .assemble,
    .classify, .crc16 [], .crc56 [], .processFrame].all (fun i => encode i == []) = true := by decide
theorem test_table_words : decodeTableWord 16 0x186 = some (.sample 0x86) ∧ decodeTableWord 16 0x400 = none ∧
    decodeTableWord 8 0x90 = some .rll000 ∧ decodeTableWord 8 0xFE = some .recAm ∧
    decodeTableWord 8 0x00 = some .recUnk ∧ decodeTableWord 0 0 = none := by decide
/-- The two words of the pseudo-operation SYNC, the first in the low bits: the first SAMPLE is read. -/
theorem test_table_sync : decodeTableWord 24 (0x164 + 0x121 * 1024) = some (.sample 0x64) := by decide

/-- The two transcriptions of the code table, the pattern and the match and mask columns of R90, agree. -/
theorem test_code_rom_columns : codeRom.all (fun r => [0, 1, 2, 3, 4, 5, 6, 7].all fun k =>
    decide (k < r.len) == r.mask.getLsbD (7 - k) &&
    (r.value.getLsbD (7 - k) == ((r.pattern.getD k .filler).bit && decide (k < r.len)))) = true := by decide

/-- Each CANON byte quantizes to its period (R112). -/
theorem test_canon : (List.range 21).all (fun n =>
    (canon (BitVec.ofNat 5 n)).map quantize == some (BitVec.ofNat 5 n)) = true := by decide +kernel

/-! ## Host operations (95_test_vectors.md 2.8) -/

theorem test_H1_nop : nextHas (exec .nop (st [5, 8] [])) (· == st [5, 8] []) = true := by decide +kernel
theorem test_H3_sample : nextHas (exec (.sample 0x21) (st [] [])) (· == st [3] []) = true := by decide +kernel
theorem test_H5_sample : nextHas (exec (.sample 0x21) (st [5, 8] []))
    (fun t => t.fb == [] && t.out == [.diag 6]) = true := by decide +kernel
theorem test_H8_eos : nextHas (exec .eos (st [3, 4] []))
    (fun t => t.phase == .done && t.fb == [] && t.out == [.diag 8]) = true := by decide +kernel
theorem test_H12_eos_refused : isRefused (exec .eos { st [] [] with phase := .done }) = true := by decide +kernel
theorem test_H14_overflow : nextHas (exec (.sample 0x21) { st [5, 8] [] with frameCap := some 2 })
    (· == { st [5, 8] [] with frameCap := some 2, fault := .frameOverflow }) = true := by decide +kernel
theorem test_H17_sync_below_capacity : nextHas (exec (.sample 0x21) { st [8] [] with frameCap := some 2 })
    (fun t => t.fault == .none && t.fb == [] && t.out == [.diag 1]) = true := by decide +kernel
theorem test_H16_reset : nextHas (exec .reset { st [5, 8] [] with fault := .frameOverflow, phase := .done })
    (· == st [] []) = true := by decide +kernel
theorem test_status : State.status { st [] [] with fault := .frameOverflow } = 2 ∧
    State.status { st [] [] with phase := .done } = 1 := by decide
theorem test_period : nextHas (exec (.period 20) (st [] [])) (· == st [20] []) = true := by decide +kernel
theorem test_period_21 : isRefused (exec (.period 21) (st [] [])) = true := by decide +kernel
/-- F10: the period stream 5 8 3 4 8 3, before EOS (R158). -/
theorem test_F10_periods : nextHas (exec (.periods [5, 8, 3, 4, 8, 3]) (st [] []))
    (fun t => t.fb == [] && t.out == [.diag 6, .diag 5]) = true := by decide +kernel
theorem test_sync : nextHas (exec .sync (st [5] [])) (fun t => t.fb == [] && t.out == [.diag 6]) = true := by
  decide +kernel

/-! ## Components -/

/-- S1: the source's three quantizer values. -/
theorem test_S1_quantizer : quantize 0 = 0 ∧ quantize 250 = 19 ∧ quantize 134 = 11 := by decide +kernel
theorem test_q : nextHas (exec (.q 40) (st [] [])) (fun t => t.work.p == some 4) = true := by decide +kernel
theorem test_append : nextHas (exec .framerAppend { inStep { Work.dead with p := some 8 } with fb := [5] })
    (fun t => t.fb == [5, 8]) = true := by decide +kernel
theorem test_append_dead : isDead (exec .framerAppend (st [] [])) .p = true := by decide +kernel
theorem test_framer_sync : nextHas (exec .framerSync { inStep { Work.dead with ev := some [] } with fb := [5, 8, 3] })
    (fun t => t.fb == [] && t.work.f == some [5] && t.work.ev == some [.diag 6]) = true := by decide +kernel
theorem test_framer_sync_none : nextHas
    (exec .framerSync { inStep { Work.dead with ev := some [] } with fb := [8, 3, 4] })
    (fun t => t.fb == [8, 3, 4] && t.work.f == none) = true := by decide +kernel
theorem test_framer_flush : nextHas (exec .framerFlush { inStep { Work.dead with ev := some [] } with fb := [4, 8] })
    (fun t => t.work.f == some [4, 8] && t.work.ev == some [.diag 13]) = true := by decide +kernel
/-- W10: the periods 0 and 1 render alike (R167, R171). -/
theorem test_W10_render : nextHas (exec .render (inStep { Work.dead with f := some [0, 1, 2, 3] }))
    (fun t => t.work.wf == some (pat [1, 1, 0, 1, 0, 0, 1, 1])) = true := by decide +kernel
theorem test_RLL1 : nextHas (exec .rll10 (decoding [0, 0, 0, 1, 0, 0, 1]))
    (fun t => t.work.pos == some 6 && t.work.bits == some (grp [1, 0])) = true := by decide +kernel
theorem test_RLL2 : nextHas (exec .rll11 (decoding [0, 0, 1, 0, 0, 0, 1]))
    (fun t => t.work.pos == some 6 && t.work.bits == some (grp [1, 1])) = true := by decide +kernel
theorem test_RLL3 : nextHas (exec .rll000 (decoding [0, 0, 1, 0, 0, 1, 0, 0, 1, 0, 0, 1, 1]))
    (fun t => t.work.pos == some 8 && t.work.bits == some (grp [0, 0, 0])) = true := by decide +kernel
theorem test_RLL4 : nextHas (exec .rll010 (decoding [0, 0, 0, 0, 0, 1, 0, 0, 1, 1]))
    (fun t => t.work.pos == some 8 && t.work.bits == some (grp [0, 1, 0])) = true := by decide +kernel
theorem test_RLL5 : nextHas (exec .rll011 (decoding [0, 0, 0, 0, 1, 0, 0, 0, 1, 1]))
    (fun t => t.work.pos == some 8 && t.work.bits == some (grp [0, 1, 1])) = true := by decide +kernel
theorem test_RLL6 : nextHas (exec .rll0010 (decoding [0, 0, 0, 0, 1, 0, 0, 1, 0, 0, 1]))
    (fun t => t.work.pos == some 10 && t.work.bits == some (grp [0, 0, 1, 0])) = true := by decide +kernel
theorem test_RLL7 : nextHas (exec .rll0011 (decoding [0, 0, 0, 0, 0, 0, 1, 0, 0, 0, 1, 1]))
    (fun t => t.work.pos == some 10 && t.work.bits == some (grp [0, 0, 1, 1])) = true := by decide +kernel
/-- RLL11: three symbols of `|---` are no match. -/
theorem test_RLL11_word : nextHas (exec .rll11 (decoding [0, 0, 1, 0, 0])) (· == decoding [0, 0, 1, 0, 0]) = true := by
  decide +kernel
theorem test_RLL10_stop : nextHas (exec .rllStop (decoding [0, 0, 1, 1])) (· == decoding [0, 0, 1, 1]) = true := by
  decide +kernel
/-- RLL14 (R193). -/
theorem test_RLL14_decode : nextHas
    (exec .rllDecode (decoding [0, 0, 1, 0, 0, 0, 1, 0, 0, 1, 0, 0, 0, 1, 0, 0, 0, 1, 1]))
    (fun t => t.work.pos == some 16 && t.work.bits == some (grp [1, 1, 0, 0, 0, 1, 0])) = true := by decide +kernel
/-- A8: the dropped first bit is not examined (R204). -/
theorem test_A8_assemble : nextHas
    (exec .assemble (inStep { Work.dead with bits := some (grp [0, 1, 1, 1, 1, 1, 0, 0, 0, 1, 1, 1, 1, 1, 1, 1, 1]) }))
    (fun t => t.work.buf == some [0xF8, 0xFF]) = true := by decide +kernel
theorem test_A3_assemble : nextHas
    (exec .assemble (inStep { Work.dead with bits := some (grp [1, 0, 0, 0, 0, 0, 0, 0]) }))
    (fun t => t.work.buf == some []) = true := by decide +kernel
theorem test_C1_none : nextHas (exec .recNone (record [])) (· == record []) = true := by decide +kernel
theorem test_C2_dm : nextHas (exec .recDm (record [0xF8]))
    (fun t => t.work.ev == some [.record ⟨.dm, 1, 14, 0xB51776B5A598C2, [0xF8]⟩]) = true := by decide +kernel
/-- C9: the seventh byte counts in `byte_len` only. -/
theorem test_C9_am : nextHas (exec .recAm (record [0xFE, 0x01, 0x23, 0x04, 0x11, 0x3D, 0x90])) (fun t => t.work.ev ==
    some [.record ⟨.am, 7, 4, 0x9000, [0xFE, 0x01, 0x23, 0x04, 0x11, 0x3D]⟩]) = true := by decide +kernel
theorem test_C10_unk : nextHas (exec .recUnk (record [0xF7, 0x01]))
    (fun t => t.work.ev == some [.record ⟨.unk, 2, 1, 0xF, [0xF7, 0x01]⟩]) = true := by decide +kernel
theorem test_C3_classify : nextHas
    (exec .classify (record [0xF8, 0xDE, 0xAD, 0xBE, 0xEF, 0x8A, 0x27, 0x4D, 0x46, 0xC8, 0x92, 0x9C]))
    (fun t => t.work.acc == some 0 && (t.work.ev.getD []).length == 1) = true := by decide +kernel
theorem test_K11_crc16 : nextHas
    (exec (.crc16 [0x31, 0x32, 0x33, 0x34, 0x35, 0x36, 0x37, 0x38, 0x39]) (st [] []))
    (fun t => t.work.acc == some 0x29B1) = true := by decide +kernel
theorem test_K13_crc56 : nextHas (exec (.crc56 [0xA1]) (st [] []))
    (fun t => t.work.acc == some 0x359A804DFFA55A) = true := by decide +kernel
theorem test_K15_crc56 : crc engine56 [0xA1, 0xF8, 0xDE, 0xAD, 0xBE, 0xEF] = 0x8A274D46C8929C := by decide +kernel
/-- R126: the frame of its example. -/
theorem test_process_frame : nextHas
    (exec .processFrame (inStep { Work.dead with f := some [3, 4, 4, 4, 3, 3], ev := some [] }))
    (fun t => t.work.ev == some [.diag 22, .record ⟨.dm, 1, 14, 0xB51776B5A598C2, [0xF8]⟩]) = true := by decide +kernel
/-- P1, step 15: the frame U closes. -/
theorem test_P1_frame : nextHas (step (st [4, 4, 5, 5, 6, 5, 5, 6, 5, 5, 3, 8] [0x121]))
    (fun t => t.out == [.diag 54, .record ⟨.unk, 3, 1, 0xF, [0x4E, 0x4E, 0x4E]⟩] && t.input == []) = true := by
  decide +kernel

/-! ## Steps from the reset state -/

theorem test_step_waits : nextHas (step State.reset) (· == State.reset) = true := by decide +kernel
theorem test_step_fetch_sample : nextHas (step (State.reset.withFetchWord 16 0x164)) (· == st [8] []) = true := by
  decide +kernel
theorem test_step_fetch_window : nextHas (step (State.reset.withFetchWord 8 0x40))
    (fun t => t.work.pos == some 6) = true := by decide +kernel
theorem test_step_fetch_tag : nextHas (step (State.reset.withFetchWord 8 0xFE))
    (fun t => t.work == Work.dead && t.out.length == 1) = true := by decide +kernel
theorem test_step_pair : nextHas (step (placeEncoded (.framesym 0x103) State.reset))
    (fun t => t.work == Work.dead && t.fb == [] && t.out == [.diag 1]) = true := by decide +kernel

/-! ## Textual forms (R110, R111) -/

theorem test_line_diag : Event.line (.diag 54) = ['4', ' ', '5', '4'] := by decide +kernel
theorem test_line_record : Event.line (.record ⟨.unk, 2, 1, 0xF, [0x00, 0x12]⟩) =
    ['6', ' ', '?', '?', ' ', '2', ' ', 'f', ' ', '0', '0', '1', '2'] := by decide +kernel
theorem test_parse_sample : parseLine ("SAMPLE 0x64 ; eight".toList) = .op (.sample 0x64) := by decide +kernel
theorem test_parse_periods : parseLine ("PERIODS 8 3 20".toList) = .op (.periods [8, 3, 20]) := by decide +kernel
theorem test_parse_bad : parseLine ("PERIOD 21".toList) = .malformed ∧ parseLine ("SAMPLE 256".toList) = .malformed ∧
    parseLine ("; only a comment".toList) = .blank := by decide +kernel
theorem test_host_words : hostWords .sync = [0x164, 0x121] ∧ hostWords .reset = [0x300] := by decide +kernel

/-! ## Witnesses: states and operands that meet the hypotheses of the statements -/

/-- A faulted block with a full buffer of two. -/
def faulted : State := { st [5, 8] [0x300] with frameCap := some 2, fault := .frameOverflow }

/-- A block after the end of the stream, with a RESET and a NOP on the port. -/
def ended (w : HostWord) : State := { st [] [w] with phase := .done }

theorem witness_EncodingsDecodeToTheirOperation :
    (Instr.period 20).wf = true ∧ (Instr.periods [0, 20]).wf = true := by decide

theorem witness_WindowBitsPastTheEndAreUnread :
    (0x90 : WindowWord) ≠ 0x93 ∧
    ∀ i, i < min 8 6 → (0x90 : WindowWord).getLsbD (7 - i) = (0x93 : WindowWord).getLsbD (7 - i) := by decide

theorem witness_NopChangesNothing : (st [5, 8] []).quiet := rfl

/-- At the boundaries: an 8 that no 3 follows, and a 3 that follows no 8. -/
theorem witness_SampleAppendsItsPeriod :
    ((st [8] []).phase = .run ∧ (st [8] []).fault = .none ∧ (st [8] []).frameCap ≠ some 1 ∧
      ¬ ((st [8] []).fb.getLast? = some 8 ∧ quantize 40 = 3)) ∧
    ¬ ((st [] []).fb.getLast? = some 8 ∧ quantize 39 = 3) := by decide +kernel

theorem witness_SampleCutsTheFrame :
    (st [5, 8] []).phase = .run ∧ (st [5, 8] []).fault = .none ∧ (st [5, 8] []).frameCap ≠ some 2 ∧
    (st [5, 8] []).fb = [5] ++ [8] ∧ 27 ≤ (27 : Byte).toNat ∧ (39 : Byte).toNat ≤ 39 := by decide +kernel

theorem witness_FrameOverflowIsTaken :
    (let s := { st [5, 8] [] with frameCap := some 2 }
     s.phase = .run ∧ s.fault = .none ∧ s.frameCap = some s.fb.length) ∧
    faulted.fault = .frameOverflow ∧
    ((st [] []).frameCap = none ∧ nextHas (exec (.sample 7) (st [] [])) (fun _ => true) = true) := by decide +kernel

theorem witness_EosFlushesTheBuffer :
    ((st [4, 8] []).phase = .run ∧ (st [4, 8] []).fault = .none) ∧
    ¬ ((ended 0).phase = .run ∧ (ended 0).fault = .none) := by decide

theorem witness_AcceptanceTable : ¬ (faulted.phase = .run ∧ faulted.fault = .none) := by decide

theorem witness_OnlyResetLeavesDoneOrFault :
    ((ended 0x000).quiet ∧ (ended 0x000).phase = .done ∧ ∃ t, step (ended 0x000) = .next t) ∧
    (faulted.quiet ∧ faulted.fault = .frameOverflow ∧ ∃ t, step faulted = .next t) :=
  ⟨⟨rfl, rfl, _, rfl⟩, rfl, rfl, _, rfl⟩

theorem witness_HostStepsNeverFault : (st [5, 8] [0x121]).quiet := rfl

theorem witness_StepEmitsAtMostTwoEvents : (st [] [0x200]).quiet ∧ ∃ t, step (st [] [0x200]) = .next t :=
  ⟨rfl, _, rfl⟩

theorem witness_PeriodIsSampleOfItsByte : (20 : Period).toNat ≤ 20 ∧ 20 < (21 : Period).toNat := by decide

theorem witness_PeriodAppends :
    (20 : Period).toNat ≤ 20 ∧ (st [4] []).phase = .run ∧ (st [4] []).fault = .none ∧ (st [4] []).frameCap ≠ some 1 ∧
    ¬ ((st [4] []).fb.getLast? = some 8 ∧ (3 : Period) = 3) := by decide

theorem witness_PeriodsFeedTheFramer :
    (∀ k ∈ ((8 : Period) :: [3, 20, 0]), k.toNat ≤ 20) ∧ (st [] []).phase = .run ∧ (st [] []).fault = .none ∧
    (st [] []).frameCap = none := by decide

/-- At the boundary: a buffer with room for just the pair. -/
theorem witness_SyncClosesTheFrame :
    let s := { st [5] [] with frameCap := some 3 }
    s.phase = .run ∧ s.fault = .none ∧ ∀ c, s.frameCap = some c → s.fb.length + 2 ≤ c :=
  ⟨rfl, rfl, fun c h => by cases h; decide⟩

theorem witness_PeriodsRunAsTheirWords :
    (st [] [0x164, 0x121, 0x200]).quiet ∧ ([8, 3] : List Period).mapM periodWord = some [0x164, 0x121] ∧
    (st [] [0x164, 0x121, 0x200]).input = [0x164, 0x121] ++ [0x200] := ⟨rfl, rfl, rfl⟩

theorem witness_AppendStoresThePeriod : (inStep { Work.dead with p := some 31 }).work.p = some 31 := rfl

theorem witness_SyncDetectionCutsOrKeeps :
    (let s := { inStep { Work.dead with ev := some [] } with fb := [5] ++ [8, 3] }
     s.work.ev = some [] ∧ s.fb = [5] ++ [8, 3]) ∧
    (let s := { inStep { Work.dead with ev := some [] } with fb := [3] }
     s.work.ev = some [] ∧ ∀ f, s.fb ≠ f ++ [8, 3]) :=
  ⟨⟨rfl, rfl⟩, rfl, fun f h => by simpa using congrArg List.length h⟩

theorem witness_FlushHandsOverTheWholeBuffer : (inStep { Work.dead with ev := some [] }).work.ev = some [] := rfl

theorem witness_RenderPlacesTheSeparators :
    (inStep { Work.dead with f := some [0, 1, 20] }).work.f = some [0, 1, 20] ∧ 2 < [0, 1, 20].length := ⟨rfl, by decide⟩

theorem witness_CodeWordsMatchAndAdvance :
    let s := decoding [0, 0, 0, 1, 0, 0]
    s.work.wf = some (pat [0, 0, 0, 1, 0, 0]) ∧ s.work.pos = some 2 ∧ s.work.bits = some [] ∧
    memRead (pat [0, 0, 0, 1, 0, 0]) 2 4 = some (pat [0, 1, 0, 0]) ∧
    memRead (pat [0, 0, 0, 1, 0, 0]) 2 4 ≠ some (pat [1, 0, 0, 0]) := by decide

theorem witness_StopKeepsBitsAndCursor :
    let s := decoding [0, 0, 1, 1]
    s.work.wf = some (pat [0, 0, 1, 1]) ∧ s.work.pos = some 2 ∧ s.work.bits = some [] := by decide

theorem witness_DecodeRunsTheLoop : (decoding [0, 0, 1]).work.wf = some (pat [0, 0, 1]) := rfl

/-- One word and the stop, and a stop at once past the end. -/
theorem witness_BitsAreHalfTheSymbols :
    Decodes (pat [0, 0, 1, 0, 0, 0]) 2 [] 6 (grp [1, 1]) ∧ Decodes (pat [1]) 2 [] 2 [] :=
  ⟨.word row11 (by decide) (by decide) (.stop (by decide)), .stop (by decide)⟩

theorem witness_LeadingSymbolsAreUnread :
    (decoding [0, 0, 1, 0, 0, 0]).work.wf = some (.filler :: .filler :: pat [1, 0, 0, 0]) ∧
    (decoding [1, 1, 1, 0, 0, 0]).work.wf = some (.separator :: .separator :: pat [1, 0, 0, 0]) := by decide

theorem witness_EncodedFrameDecodesToItsBits :
    encodePeriods (grp [1, 1, 0, 0, 1, 1]) = some (([3, 8, 4] : List Period).map BitVec.toNat) ∧
    (inStep { Work.dead with f := some [3, 8, 4] }).work.f = some [3, 8, 4] := by decide

theorem witness_EncodedFrameHoldsNoSyncPair :
    encodePeriods (grp [1, 1, 0, 0, 1, 1]) = some [3, 8, 4] ∧ encodePeriods [] = some [3] := by decide

theorem witness_AssemblePacksTheBits :
    (inStep { Work.dead with bits := some (grp [1, 1, 0, 0, 0, 0, 0, 0, 0]) }).work.bits =
      some (grp [1, 1, 0, 0, 0, 0, 0, 0, 0]) ∧ (inStep { Work.dead with bits := some [] }).work.bits = some [] := by
  decide

theorem witness_ClassifyRunsTheSelectedClass :
    ((record []).work.buf = some [] ∧ (record []).work.ev = some []) ∧
    ((record [0xF8]).work.buf = some [0xF8] ∧ (record [0xF8]).work.ev = some []) := by decide

theorem witness_EmptyRecordHasNoEvent : (record []).work.buf = some [] := rfl

theorem witness_DataMarkIsReported :
    (record [0xF8, 1]).work.buf = some (0xF8 :: [1]) ∧ (record [0xF8, 1]).work.ev = some [] := by decide

theorem witness_AddressMarkIsReported :
    (0xF9 ≤ (0xF9 : Byte).toNat ∧ (record [0xF9]).work.buf = some (0xF9 :: [])) ∧
    (0xF9 ≤ (0xFF : Byte).toNat ∧ (record [0xFF, 2]).work.buf = some (0xFF :: [2])) ∧
    (record [0xF9]).work.ev = some [] := by decide

theorem witness_UnknownRecordIsReported :
    ((0xF7 : Byte).toNat ≤ 0xF7 ∧ (record [0xF7]).work.buf = some (0xF7 :: [])) ∧
    ((0 : Byte).toNat ≤ 0xF7 ∧ (record [0, 2]).work.buf = some (0 :: [2])) ∧ (record [0]).work.ev = some [] := by
  decide

/-- Each clause at its boundary: 0xF9 for REC.DM, 0xF8 for REC.AM and for REC.UNK, and the empty record. -/
theorem witness_UnselectedClassHasNoEffect :
    (record [0xF9]).work.buf = some [0xF9] ∧ [(0xF9 : Byte)].head? ≠ some 0xF8 ∧
    (∀ t, [(0xF8 : Byte)].head? = some t → t.toNat ≤ 0xF8) ∧
    (∀ t, [(0xF8 : Byte)].head? = some t → 0xF8 ≤ t.toNat) ∧
    (∀ t, ([] : List Byte).head? = some t → t.toNat ≤ 0xF8) :=
  ⟨rfl, by decide, fun t h => by cases h; decide, fun t h => by cases h; decide, fun t h => by cases h⟩

theorem witness_EngineByteIsEightShifts : engine16 = engine16 ∨ engine16 = engine56 := .inl rfl

theorem witness_EnginesAreAffine :
    (engine56 = engine16 ∨ engine56 = engine56) ∧ ([1, 2] : List Byte).length = ([3, 4] : List Byte).length :=
  ⟨.inr rfl, rfl⟩

theorem witness_OwnCheckValueLeavesZero : engine56 = engine16 ∨ engine56 = engine56 := .inr rfl

theorem witness_ProcessFrameRunsEveryStage :
    (inStep { Work.dead with f := some [3], ev := some [] }).work.f = some [3] ∧
    (inStep { Work.dead with f := some [3], ev := some [] }).work.ev = some [] := by decide

theorem witness_StepRunsTheNextHostOperation :
    ((st [] [0x121, 0x200]).quiet ∧ (st [] [0x121, 0x200]).input = 0x121 :: [0x200]) ∧
    ((st [] []).quiet ∧ (st [] []).input = []) := ⟨⟨rfl, rfl⟩, rfl, rfl⟩

theorem witness_StepInsideAFrameRunsItsOperation :
    ((decoding [0, 0, 1]).work.buf = none ∧ (decoding [0, 0, 1]).work.wf = some (pat [0, 0, 1]) ∧
      (decoding [0, 0, 1]).work.pos = some 2) ∧
    (record [0xF8]).work.buf = some [0xF8] ∧
    (let s := inStep { Work.dead with p := some 3, ev := some [] }
     s.work = { Work.dead with p := some 3, ev := s.work.ev }) := by decide

/-- A sound state in the middle of a frame, and its next step. -/
theorem witness_StepKeepsSoundStates : (st [5, 8] [0x164]).Sound ∧ ∃ t, step (st [5, 8] [0x164]) = .next t := by
  refine ⟨⟨rfl, ?_, ⟨by decide, trivial⟩, ?_, ?_, ?_⟩, _, rfl⟩
  · simp [periodsOk, st, periodMax]
  · intro c h
    cases h
  · intro h
    cases h
  · intro h
    cases h

/-- A sound output that ends in a record, and a step that emits two events more. -/
theorem witness_StepKeepsSoundOutput :
    let s := { st [5, 4, 5, 3, 3, 3, 8] [0x121] with out := [.diag 1, .record ⟨.unk, 1, 1, 0xF, [0]⟩] }
    s.quiet ∧ s.OutSound ∧ ∃ t, step s = .next t := by
  refine ⟨rfl, ⟨?_, ?_⟩, _, rfl⟩
  · intro e he
    rcases List.mem_pair.1 he with rfl | rfl
    · exact Nat.le_refl 1
    · exact ⟨rfl, ⟨0, rfl, by decide⟩, rfl, rfl⟩
  · exact ⟨rfl, trivial⟩

theorem witness_StreamEmitsTheEventsOfItsFrames :
    let s := st [] [0x164, 0x000, 0x121, 0x200, 0x300]
    s.quiet ∧ s.phase = .run ∧ s.fault = .none ∧ s.fb = [] ∧ s.frameCap = none ∧
    (∀ x ∈ ([0x164, 0x000, 0x121] : List HostWord), decodeHostOp x = .nop ∨ ∃ b, decodeHostOp x = .sample b) ∧
    decodeHostOp 0x200 = .eos ∧ s.input = [0x164, 0x000, 0x121] ++ 0x200 :: [0x300] := by
  refine ⟨rfl, rfl, rfl, rfl, rfl, ?_, by decide, rfl⟩
  simp only [List.forall_mem_cons]
  exact ⟨.inr ⟨0x64, by decide⟩, .inl (by decide), .inr ⟨0x21, by decide⟩, by simp⟩

end Sys2Proof.Tests
end

section
/-! What a step does at each fetch site, and where the sequencing inside a host operation leads (log entry 6). -/

namespace Sys2Proof.Machine

/-! ## The pair of periods -/

theorem framePair_toNat (a b : Period) : (framePair a b).toNat = 32 * a.toNat + b.toNat := by
  rw [framePair, BitVec.toNat_append, ← Nat.shiftLeft_add_eq_or_of_lt b.isLt, Nat.shiftLeft_eq]
  omega

/-- R85: a pair word keeps both periods, so it is the pair `SYNC` for no other periods than 8 and 3. -/
theorem framePair_eq_syncPair_iff (a b : Period) : framePair a b = syncPair ↔ a = syncFirst ∧ b = syncSecond := by
  constructor
  · intro h
    have hsum : 32 * a.toNat + b.toNat = 32 * 8 + 3 := by rw [← framePair_toNat, h]; rfl
    have ha : a.toNat = 8 := by omega
    have hb : b.toNat = 3 := by omega
    exact ⟨BitVec.eq_of_toNat_eq ha, BitVec.eq_of_toNat_eq hb⟩
  · rintro ⟨rfl, rfl⟩
    rfl

theorem pairInstr_of_syncHit {fb : List Period} (h : syncHit fb = true) :
    pairInstr (pairWord fb) = some .framerSync := by
  obtain ⟨f, rfl⟩ := (syncHit_iff fb).1 h
  rw [pairWord, lastTwo_append]
  rfl

/-- R85: a buffer of fewer than two periods, or with another pair at its end, selects no operation. -/
theorem pairInstr_of_not_syncHit {fb : List Period} (h : syncHit fb = false) : pairInstr (pairWord fb) = none := by
  cases hl : lastTwo fb with
  | none => simp [pairInstr, pairWord, hl]
  | some ab =>
    obtain ⟨a, b⟩ := ab
    have hne : framePair a b ≠ syncPair := by
      rw [ne_eq, framePair_eq_syncPair_iff]
      simpa [syncHit, hl] using h
    simp [pairInstr, pairWord, hl, decodePair, hne]

/-! ## The step at each site -/

/-- `P` live and nothing else but `EV`: the Framer is about to test the pair at the end of the buffer. -/
theorem fetchSite_pair {s : State} {p : Period} {ev : Option (List Event)}
    (h : s.work = { Work.dead with p := some p, ev := ev }) : fetchSite s = .pair (pairWord s.fb) := by
  simp [fetchSite, framerSite, h]

theorem step_cursor {s : State} {w : WindowWord} {avail : Nat} (h : fetchSite s = .cursor w avail) :
    step s = andThen (exec (decodeWindow w avail) s) (afterCodeWord (decodeWindow w avail)) := by
  rw [step, h]

theorem step_tag {s : State} {t : Option Byte} (h : fetchSite s = .tag t) :
    step s = andThen (exec (decodeTag t) s) endOp := by
  rw [step, h]

theorem step_pair_some {s : State} {w : Option (BitVec 10)} {i : Instr} (h : fetchSite s = .pair w)
    (hi : pairInstr w = some i) : step s = andThen (exec i s) endOp := by
  simp only [step, h, hi]

theorem step_pair_none {s : State} {w : Option (BitVec 10)} (h : fetchSite s = .pair w) (hi : pairInstr w = none) :
    step s = endOp s := by
  simp only [step, h, hi]

/-- Where the pair selects no operation the step only ends, and there sync detection has no effect either: so in both
cases the step is sync detection and the end of the host operation. -/
theorem step_pair {s : State} (h : fetchSite s = .pair (pairWord s.fb)) :
    step s = andThen (exec .framerSync s) endOp := by
  cases hs : syncHit s.fb with
  | true => exact step_pair_some h (pairInstr_of_syncHit hs)
  | false =>
    have hexec : exec .framerSync s = .next s := syncOp_miss rfl hs
    rw [step_pair_none h (pairInstr_of_not_syncHit hs), hexec, andThen_next]

/-! ## The obligation -/

/-- Settles O54: the registers that live name the fetch site, and the step runs what is fetched there. -/
theorem stepInsideAFrameRunsItsOperation : Obligations.StepInsideAFrameRunsItsOperation := by
  intro s
  refine ⟨?cursor, ?tag, ?pair⟩
  case cursor =>
    intro wf pos hbuf hwf hpos
    exact step_cursor (fetchSite_cursor hbuf hwf hpos)
  case tag =>
    intro buf hbuf
    exact step_tag (fetchSite_tag hbuf)
  case pair =>
    intro p hwork
    exact step_pair (fetchSite_pair hwork)

end Sys2Proof.Machine
end

section
/-! What a host operation can do to a state, said once; the invariant between steps and the events of a step follow from
it case by case (10_state.md). -/

namespace Sys2Proof.Machine

/-! ## What the host operations do -/

theorem execNop_eq (s : State) : exec .nop s = .next (s.setWork Work.dead) := by
  rw [exec, execNop, endOp_live (ev := []) rfl]
  simp [beginOp, State.setOut, State.setWork]

theorem execReset_eq (s : State) : exec .reset s = .next ((restoreReset s).setWork Work.dead) := by
  rw [exec, execReset, endOp_live (ev := []) rfl]
  simp [beginOp, State.setOut, State.setWork]

/-- The states in which a host operation can end that runs on `s` (R122 to R125, R256). -/
inductive HostOpEnds (s : State) : State → Prop where
  | nop : HostOpEnds s (s.setWork Work.dead)
  | reset : HostOpEnds s ((restoreReset s).setWork Work.dead)
  | overflow (hacc : s.accepting = true) (hfull : s.full = true) :
      HostOpEnds s ((s.setFault .frameOverflow).setWork Work.dead)
  | append (b : Byte) (hacc : s.accepting = true) (hroom : s.full = false)
      (hmiss : ¬ (s.fb.getLast? = some 8 ∧ quantize b = 3)) :
      HostOpEnds s ((s.setFb (s.fb ++ [quantize b])).setWork Work.dead)
  | cut (f : List Period) (hacc : s.accepting = true) (hroom : s.full = false) (hfb : s.fb = f ++ [8]) :
      HostOpEnds s (((s.setFb []).setOut (s.out ++ frameEvents f)).setWork Work.dead)
  | eos (hacc : s.accepting = true) :
      HostOpEnds s ((((s.setPhase .done).setFb []).setOut (s.out ++ frameEvents s.fb)).setWork Work.dead)

/-- A sync hit after an append strips exactly the 8 that stood last and the 3 just appended (R152). -/
theorem take_of_syncHit_append {fb : List Period} {p : Period} (h : syncHit (fb ++ [p]) = true) :
    ∃ f, fb = f ++ [8] ∧ (fb ++ [p]).take ((fb ++ [p]).length - 2) = f := by
  obtain ⟨hlast, rfl⟩ := (syncHit_append fb p).1 h
  obtain ⟨f, rfl⟩ := List.getLast?_eq_some_iff.1 hlast
  exact ⟨f, rfl, by simp⟩

theorem sampleOp_ends {s t : State} {b : Byte} (h : sampleOp b s = .next t) : HostOpEnds s t := by
  obtain ⟨hacc, ⟨hfull, rfl⟩ | ⟨hroom, hhit, rfl⟩ | ⟨hroom, hmiss, rfl⟩⟩ := sampleOp_next h
  · exact .overflow hacc hfull
  · obtain ⟨f, hfb, htake⟩ := take_of_syncHit_append hhit
    rw [htake]
    exact .cut f hacc hroom hfb
  · exact .append b hacc hroom (by rw [← syncHit_append, hmiss]; simp)

theorem exec_hostOp_ends {w : HostWord} {s t : State} (h : exec (decodeHostOp w) s = .next t) : HostOpEnds s t := by
  rcases decodeHostOp_cases w with hw | hw | hw | hw <;> rw [hw] at h
  · cases (execNop_eq s).symm.trans h
    exact .nop
  · exact sampleOp_ends h
  · obtain ⟨hacc, rfl⟩ := eosOp_next h
    exact .eos hacc
  · cases (execReset_eq s).symm.trans h
    exact .reset

/-- R120, R283: between steps a step waits, or takes a word off the input port and runs a host operation. -/
theorem step_quiet_next {s t : State} (hq : s.quiet) (h : step s = .next t) :
    t = s ∨ ∃ rest, HostOpEnds (s.setInput rest) t := by
  rw [step, fetchSite_dead hq] at h
  cases hi : s.input with
  | nil =>
    rw [hi] at h
    cases h
    exact .inl rfl
  | cons w rest =>
    rw [hi] at h
    exact .inr ⟨rest, exec_hostOp_ends h⟩

/-! ## The predicates of the invariant -/

theorem accepting_iff (s : State) : s.accepting = true ↔ s.phase = .run ∧ s.fault = .none := by
  simp [State.accepting]

theorem full_iff (s : State) : s.full = true ↔ s.frameCap = some s.fb.length := by
  simp [State.full]

/-- R84, R142: the largest sample byte, 255, quantizes to 20. -/
theorem quantize_le_periodMax (b : Byte) : (quantize b).toNat ≤ periodMax := by
  have hb : b.toNat < 256 := b.isLt
  have hq : (2000 * b.toNat + 26665) / 26666 ≤ 20 := by omega
  rw [quantize, BitVec.toNat_ofNat, periodMax]
  exact (Nat.mod_le _ _).trans hq

theorem periodsOk_nil : periodsOk [] := by simp [periodsOk]

theorem periodsOk_append {fb : List Period} {p : Period} (h : periodsOk fb) (hp : p.toNat ≤ periodMax) :
    periodsOk (fb ++ [p]) := by
  intro q hq
  rcases List.mem_append.1 hq with hq | hq
  · exact h q hq
  · rwa [List.mem_singleton.1 hq]

/-- A period can be appended where it does not complete a sync pair with the one before it. -/
theorem noSyncInside_append {p : Period} : ∀ {fb : List Period}, noSyncInside fb →
    ¬ (fb.getLast? = some 8 ∧ p = 3) → noSyncInside (fb ++ [p])
  | [], _, _ => trivial
  | [_], _, hp => ⟨by simpa using hp, trivial⟩
  | _ :: b :: rest, ⟨hab, h⟩, hp => ⟨hab, noSyncInside_append (fb := b :: rest) h (by simpa using hp)⟩

theorem withinCap_nil (cap : FrameCap) : withinCap cap [] := fun _ _ => Nat.zero_le _

theorem withinCap_append {s : State} (h : withinCap s.frameCap s.fb) (hroom : s.full = false) (p : Period) :
    withinCap s.frameCap (s.fb ++ [p]) := by
  intro c hc
  have hle : s.fb.length ≤ c := h c hc
  have hne : s.fb.length ≠ c := by
    rintro rfl
    simp [(full_iff s).2 hc] at hroom
  simp only [List.length_append, List.length_singleton]
  omega

/-! ## The invariant between steps -/

/-- With an empty buffer and no fault every clause of the invariant holds: so after RESET, a sync hit and EOS. -/
theorem sound_of_empty {s : State} (hq : s.quiet) (hfb : s.fb = []) (hfault : s.fault = .none) : s.Sound where
  quiet := hq
  periods := hfb ▸ periodsOk_nil
  noSync := hfb ▸ trivial
  cap := hfb ▸ withinCap_nil _
  done _ := ⟨hfb, hfault⟩
  overflow h := by simp [hfault] at h

theorem State.Sound.setInput {s : State} (h : s.Sound) (rest : List HostWord) : (s.setInput rest).Sound :=
  ⟨h.quiet, h.periods, h.noSync, h.cap, h.done, h.overflow⟩

/-- Every host operation keeps the invariant, in whichever way it ends. -/
theorem HostOpEnds.sound {s t : State} (h : HostOpEnds s t) (hs : s.Sound) : t.Sound := by
  cases h with
  | nop => exact ⟨rfl, hs.periods, hs.noSync, hs.cap, hs.done, hs.overflow⟩
  | reset => exact sound_of_empty rfl rfl rfl
  | overflow hacc hfull =>
    have hrun := ((accepting_iff s).1 hacc).1
    exact ⟨rfl, hs.periods, hs.noSync, hs.cap, fun hdone => by simp [hrun] at hdone, fun _ => (full_iff s).1 hfull⟩
  | append b hacc hroom hmiss =>
    obtain ⟨hrun, hnone⟩ := (accepting_iff s).1 hacc
    exact
      { quiet := rfl
        periods := periodsOk_append hs.periods (quantize_le_periodMax b)
        noSync := noSyncInside_append hs.noSync hmiss
        cap := withinCap_append hs.cap hroom (quantize b)
        done := fun hdone => by simp [hrun] at hdone
        overflow := fun hover => by simp [hnone] at hover }
  | cut f hacc _ _ => exact sound_of_empty rfl rfl ((accepting_iff s).1 hacc).2
  | eos hacc => exact sound_of_empty rfl rfl ((accepting_iff s).1 hacc).2

/-- Settles O56: a step between steps waits or runs a host operation, and each keeps the invariant. -/
theorem stepKeepsSoundStates : Obligations.StepKeepsSoundStates := by
  intro s t hs h
  obtain rfl | ⟨rest, hends⟩ := step_quiet_next hs.quiet h
  · exact hs
  · exact hends.sound (hs.setInput rest)

/-! ## The events of a step -/

/-- A host operation adds nothing to the output, or the events of one frame (R33, R67). -/
theorem HostOpEnds.out {s t : State} (h : HostOpEnds s t) :
    t.out = s.out ∨ ∃ f, t.out = s.out ++ frameEvents f := by
  cases h with
  | nop | reset | overflow | append => exact .inl rfl
  | cut f => exact .inr ⟨f, rfl⟩
  | eos => exact .inr ⟨s.fb, rfl⟩

theorem step_quiet_out {s t : State} (hq : s.quiet) (h : step s = .next t) :
    t.out = s.out ∨ ∃ f, t.out = s.out ++ frameEvents f := by
  obtain rfl | ⟨_, hends⟩ := step_quiet_next hq h
  · exact .inl rfl
  · exact hends.out

/-- Of the events of a record there is none, or one record event (R210, R216). -/
theorem recordEvent_cases (buf : List Byte) : recordEvent buf = none ∨ ∃ r, recordEvent buf = some (.record r) := by
  unfold recordEvent
  split
  · exact .inl rfl
  · split
    · exact .inr ⟨_, rfl⟩
    · split
      · exact .inr ⟨_, rfl⟩
      · exact .inr ⟨_, rfl⟩

theorem frameEvents_cases (f : List Period) :
    (∃ n, frameEvents f = [.diag n]) ∨ ∃ n r, frameEvents f = [.diag n, .record r] := by
  obtain h | ⟨r, h⟩ := recordEvent_cases (frameRecord f)
  · exact .inl ⟨_, by rw [frameEvents, h]; rfl⟩
  · exact .inr ⟨_, r, by rw [frameEvents, h]; rfl⟩

/-- Settles O21: what a step adds to the output are the events of at most one frame. -/
theorem stepEmitsAtMostTwoEvents : Obligations.StepEmitsAtMostTwoEvents := by
  intro s t hq h
  obtain hout | ⟨f, hout⟩ := step_quiet_out hq h
  · exact .inl hout
  · rw [hout]
    obtain ⟨n, hf⟩ | ⟨n, r, hf⟩ := frameEvents_cases f
    · exact .inr (.inl ⟨n, by rw [hf]⟩)
    · exact .inr (.inr ⟨n, r, by rw [hf]⟩)

/-! ## Reset and status -/

/-- Settles O9. -/
theorem resetStateHoldsItsValues : Obligations.ResetStateHoldsItsValues := ⟨rfl, rfl, rfl, rfl⟩

theorem Phase.code_eq (x : Phase) : x.code = decide (x = .done) := by cases x <;> rfl

theorem FaultCode.code_eq (x : FaultCode) : x.code = decide (x = .frameOverflow) := by cases x <;> rfl

theorem State.status_bit0 (s : State) : s.status.getLsbD 0 = s.phase.code :=
  BitVec.getLsbD_append.trans (by simp)

theorem State.status_bit1 (s : State) : s.status.getLsbD 1 = s.fault.code :=
  BitVec.getLsbD_append.trans (by simp)

/-- Settles O11: STATUS is the fault bit in front of the phase bit. -/
theorem statusShowsPhaseAndFault : Obligations.StatusShowsPhaseAndFault := fun s =>
  ⟨s.status_bit0.trans s.phase.code_eq, s.status_bit1.trans s.fault.code_eq⟩

theorem outSound_of_nil {s : State} (h : s.out = []) : s.OutSound where
  events := by simp [h]
  order := h ▸ trivial

/-- Settles O57: the reset state has an empty buffer, no fault and no event. -/
theorem resetStateIsSound : Obligations.ResetStateIsSound :=
  ⟨sound_of_empty rfl rfl rfl, outSound_of_nil rfl⟩

end Sys2Proof.Machine
end

section
/-! What the decode loop reads of the waveform: only what stands at or after its cursor, so never the two leading symbols
(20_memory.md R52, 44_rll_decoder.md R189). -/

namespace Sys2Proof.Machine

/-! ## Reads past a leading part of fixed length -/

/-- R56: of a part that ends before the index, a read sees only the length. -/
theorem memRead_append_congr {α : Type} {xs ys rest : List α} {a : Nat} (hlen : xs.length = ys.length)
    (ha : xs.length ≤ a) (n : Nat) : memRead (xs ++ rest) a n = memRead (ys ++ rest) a n := by
  have hdrop : (xs ++ rest).drop a = (ys ++ rest).drop a := by
    simp only [List.drop_append, List.drop_eq_nil_of_le ha, List.drop_eq_nil_of_le (hlen ▸ ha : ys.length ≤ a), hlen]
  have hwhole : (xs ++ rest).length = (ys ++ rest).length := by
    rw [List.length_append, List.length_append, hlen]
  rw [memRead, memRead, hdrop, hwhole]

theorem matchAt_append_congr {xs ys rest : List Symbol} {pos : Nat} (hlen : xs.length = ys.length)
    (hpos : xs.length ≤ pos) : matchAt (xs ++ rest) pos = matchAt (ys ++ rest) pos := by
  simp only [matchAt, matchRow, memRead_append_congr hlen hpos]

/-- The cursor only moves forward, so a loop that starts past the leading part never looks back into it (R186). -/
theorem rllLoop_append_congr {xs ys rest : List Symbol} (hlen : xs.length = ys.length) (fuel : Nat) :
    ∀ {pos : Nat} {bits : List Bool}, xs.length ≤ pos →
      rllLoop fuel (xs ++ rest) pos bits = rllLoop fuel (ys ++ rest) pos bits := by
  induction fuel with
  | zero => intros; rfl
  | succ fuel ih =>
    intro pos bits hpos
    simp only [rllLoop, matchAt_append_congr hlen hpos]
    cases matchAt (ys ++ rest) pos with
    | none => rfl
    | some r => exact ih (Nat.le_add_right_of_le hpos)

/-- R189: decoding starts at `startOffset`, so it does not depend on the symbols of a leading part that ends there. -/
theorem rllDecodeFrom_append_congr {xs ys rest : List Symbol} (hlen : xs.length = ys.length)
    (hstart : xs.length ≤ startOffset) : rllDecodeFrom (xs ++ rest) = rllDecodeFrom (ys ++ rest) := by
  rw [rllDecodeFrom, rllDecodeFrom, List.length_append, List.length_append, hlen, rllLoop_append_congr hlen _ hstart]

/-! ## The obligation -/

/-- Settles O38: both decode loops start past the two leading symbols, and RLLDECODE writes nothing but their result. -/
theorem leadingSymbolsAreUnread : Obligations.LeadingSymbolsAreUnread := by
  intro a b a' b' rest s t hs ht
  have hsame : rllDecodeFrom (a' :: b' :: rest) = rllDecodeFrom (a :: b :: rest) :=
    rllDecodeFrom_append_congr (xs := [a', b']) (ys := [a, b]) rfl (Nat.le_refl 2)
  exact ⟨(rllDecodeFrom (a :: b :: rest)).1, (rllDecodeFrom (a :: b :: rest)).2,
    rllDecodeOp_live hs, hsame ▸ rllDecodeOp_live ht⟩

end Sys2Proof.Machine
end

section
/-! The decoders in terms of the encodings' fields: the HOSTOP word of its two fields, the window as a row of the code
table sees it, the tag as a number; and from them that decode and encode agree (30_encoding.md R81 to R95, R112). -/

namespace Sys2Proof
open Machine

/-! ## HOSTOP words -/

@[simp] theorem hostOpCode_hostWord (op : BitVec 2) (data : Byte) : hostOpCode (hostWord op data) = op :=
  BitVec.extractLsb'_append_eq_left

@[simp] theorem hostData_hostWord (op : BitVec 2) (data : Byte) : hostData (hostWord op data) = data :=
  BitVec.extractLsb'_append_eq_right

/-- R81: the two fields are the whole word. -/
theorem hostWord_of_fields (w : HostWord) : hostWord (hostOpCode w) (hostData w) = w := by
  rw [hostWord, hostOpCode, hostData, BitVec.extractLsb'_append_extractLsb'_eq_extractLsb' (by rfl)]
  exact BitVec.extractLsb'_eq_self

/-- R82: two bits have four values, and all four are operation codes. -/
theorem hostOpCode_cases : ∀ op : BitVec 2, op = 0 ∨ op = 1 ∨ op = 2 ∨ op = 3 := by decide

theorem decodeHostOp_nop (data : Byte) : decodeHostOp (hostWord 0 data) = .nop := by simp [decodeHostOp]

theorem decodeHostOp_sampleWord (b : Byte) : decodeHostOp (sampleWord b) = .sample b := by
  simp [decodeHostOp, sampleWord]

theorem decodeHostOp_eos (data : Byte) : decodeHostOp (hostWord 2 data) = .eos := by simp [decodeHostOp]

theorem decodeHostOp_reset (data : Byte) : decodeHostOp (hostWord 3 data) = .reset := by simp [decodeHostOp]

/-! ## Windows -/

/-- The value column holds no bit that the mask column leaves out (R90). -/
theorem CodeRow.value_and_mask : ∀ r ∈ codeRom, r.value &&& r.mask = r.value := by decide

/-- R89 in the columns of the table: the values of two rows differ in a bit that both rows examine. -/
theorem CodeRow.eq_of_common_value : ∀ r ∈ codeRom, ∀ r' ∈ codeRom,
    r.value &&& r'.mask = r'.value &&& r.mask → r = r' := by decide

/-- The mask column examines the consumed symbols only (R90). -/
theorem CodeRow.lt_len_of_mask : ∀ r ∈ codeRom, ∀ j < 8, r.mask.getLsbD j = true → 7 - j < r.len := by decide

theorem CodeRow.len_pos : ∀ r ∈ codeRom, 0 < r.len := by decide

theorem CodeRow.fits_iff (r : CodeRow) (w : WindowWord) (avail : Nat) :
    r.fits w avail = true ↔ r.len ≤ avail ∧ w &&& r.mask = r.value := by
  simp [CodeRow.fits]

/-- R89: no two rows match the same window. -/
theorem CodeRow.eq_of_fits {r r' : CodeRow} (hr : r ∈ codeRom) (hr' : r' ∈ codeRom) {w : WindowWord} {avail : Nat}
    (h : r.fits w avail = true) (h' : r'.fits w avail = true) : r = r' := by
  obtain ⟨_, hv⟩ := (r.fits_iff w avail).1 h
  obtain ⟨_, hv'⟩ := (r'.fits_iff w avail).1 h'
  refine CodeRow.eq_of_common_value r hr r' hr' ?_
  rw [← hv, ← hv', BitVec.and_assoc, BitVec.and_assoc, BitVec.and_comm r.mask]

theorem decodeWindow_of_fits {r : CodeRow} (hr : r ∈ codeRom) {w : WindowWord} {avail : Nat}
    (h : r.fits w avail = true) : decodeWindow w avail = r.instr := by
  rw [decodeWindow]
  cases hf : codeRom.find? (·.fits w avail) with
  | none => exact absurd h (List.find?_eq_none.1 hf r hr)
  | some r' =>
    have hfits : r'.fits w avail = true := List.find?_some (p := fun x : CodeRow => x.fits w avail) hf
    rw [CodeRow.eq_of_fits hr (List.mem_of_find?_eq_some hf) h hfits]

/-- R87: a window of no symbols matches no row. -/
theorem decodeWindow_empty (w : WindowWord) : decodeWindow w 0 = .rllStop := by
  have hnone : codeRom.find? (·.fits w 0) = none := by
    refine List.find?_eq_none.2 fun r hr h => ?_
    have hlen : r.len ≤ 0 := ((r.fits_iff w 0).1 h).1
    exact absurd (CodeRow.len_pos r hr) (Nat.not_lt.2 hlen)
  rw [decodeWindow, hnone]

/-- The unexamined bits of a row's window are masked away, whatever fills them. -/
theorem CodeRow.window_and_mask {r : CodeRow} (hr : r ∈ codeRom) (u : Byte) :
    (r.value ||| (u &&& ~~~r.mask)) &&& r.mask = r.value := by
  have hfill : u &&& ~~~r.mask &&& r.mask = 0#8 := by
    rw [BitVec.and_assoc, BitVec.and_comm (~~~r.mask), BitVec.and_not_self]
    exact BitVec.and_zero
  rw [BitVec.and_comm, BitVec.and_or_distrib_left, BitVec.and_comm r.mask, BitVec.and_comm r.mask, hfill, BitVec.or_zero,
    CodeRow.value_and_mask r hr]

/-- R90: a code word's window decodes to it, whatever fills the symbols that the table marks "not examined". -/
theorem decode_window {r : CodeRow} (hr : r ∈ codeRom) (u : Byte) : decode (r.window u) = .ok r.instr := by
  have hfits : r.fits (r.value ||| (u &&& ~~~r.mask)) r.len = true :=
    (r.fits_iff _ _).2 ⟨Nat.le_refl _, CodeRow.window_and_mask hr u⟩
  rw [CodeRow.window, decode, decodeWindow_of_fits hr hfits]

/-- A row examines no bit past its own length, so two windows that agree on the symbols that exist fit it alike. -/
theorem CodeRow.fits_congr {r : CodeRow} (hr : r ∈ codeRom) {w w' : WindowWord} {avail : Nat}
    (h : ∀ i, i < min 8 avail → w.getLsbD (7 - i) = w'.getLsbD (7 - i)) : r.fits w avail = r.fits w' avail := by
  by_cases hlen : r.len ≤ avail
  · have hmask : w &&& r.mask = w' &&& r.mask := by
      refine BitVec.eq_of_getLsbD_eq fun j hj => ?_
      rw [BitVec.getLsbD_and, BitVec.getLsbD_and]
      cases hm : r.mask.getLsbD j with
      | false => rw [Bool.and_false, Bool.and_false]
      | true =>
        have hj' : 7 - j < r.len := CodeRow.lt_len_of_mask r hr j hj hm
        have hbit := h (7 - j) (by omega)
        rw [show 7 - (7 - j) = j by omega] at hbit
        rw [hbit]
    rw [CodeRow.fits, CodeRow.fits, hmask]
  · rw [CodeRow.fits, CodeRow.fits, decide_eq_false hlen, Bool.false_and, Bool.false_and]

/-! ## Tags -/

/-- R95: the comparison of the tag byte, on its unsigned value. -/
theorem decodeTag_some (t : Byte) : decodeTag (some t) =
    if t.toNat = 0xF8 then .recDm else if 0xF8 < t.toNat then .recAm else .recUnk := by
  have heq : t = tagDm ↔ t.toNat = 0xF8 := BitVec.toNat_inj.symm
  have hlt : tagDm < t ↔ 0xF8 < t.toNat := BitVec.lt_def
  simp only [decodeTag, heq, hlt]

theorem decodeTag_eq_recDm (t : Byte) : decodeTag (some t) = .recDm ↔ t.toNat = 0xF8 := by
  rw [decodeTag_some]
  split_ifs <;> simp_all

theorem decodeTag_eq_recAm (t : Byte) : decodeTag (some t) = .recAm ↔ 0xF9 ≤ t.toNat := by
  rw [decodeTag_some]
  split_ifs <;> simp <;> omega

theorem decodeTag_eq_recUnk (t : Byte) : decodeTag (some t) = .recUnk ↔ t.toNat ≤ 0xF7 := by
  rw [decodeTag_some]
  split_ifs <;> simp <;> omega

/-- The low three bits of an Address Mark's tag are not 000, so the tag is above 0xF8. -/
theorem addressTag_ge (u : Byte) : 0xF9 ≤ (addressTag u).toNat := by
  unfold addressTag
  split
  · exact Nat.le_refl _
  · next hne =>
    have hlow : (u &&& 7).toNat < 2 ^ 3 := by
      rw [BitVec.toNat_and]
      exact Nat.and_lt_two_pow _ (by decide)
    have hpos : (u &&& 7).toNat ≠ 0 := fun h => hne (BitVec.eq_of_toNat_eq h)
    have hsum : (0xF8 ||| (u &&& 7)).toNat = 2 ^ 3 * 31 + (u &&& 7).toNat := by
      rw [BitVec.toNat_or, Nat.two_pow_add_eq_or_of_lt hlow]
      rfl
    omega

theorem unknownTag_le (u : Byte) : (unknownTag u).toNat ≤ 0xF7 := by
  unfold unknownTag
  split
  · next hlt =>
    have hu : u.toNat < 0xF8 := BitVec.lt_def.1 hlt
    omega
  · exact Nat.le_refl _

/-! ## Pseudo-operations -/

/-- R112: the words of `PERIODS` are the words of the `SAMPLE`s it expands to. -/
theorem mapM_periodWord (ns : List Period) : ns.mapM periodWord = (ns.mapM canon).map (List.map sampleWord) := by
  induction ns with
  | nil => rfl
  | cons n ns ih =>
    rw [List.mapM_cons, List.mapM_cons, ih, periodWord]
    cases canon n <;> cases ns.mapM canon <;> rfl

/-- `SAMPLE` words decode, each at its place on the input port, to their `SAMPLE`s. -/
theorem map_decode_sampleWords (bs : List Byte) :
    ((bs.map sampleWord).map .hostop).map decode = (bs.map .sample).map .ok := by
  simp [decode, decodeHostOp_sampleWord]

theorem map_decode_period (u : Byte) (n : Period) :
    (encodeWith u (.period n)).map decode = (expansion (.period n)).map .ok := by
  rw [encodeWith, expansion, periodWord, ← map_decode_sampleWords]
  cases canon n <;> rfl

theorem map_decode_periods (u : Byte) (ns : List Period) :
    (encodeWith u (.periods ns)).map decode = (expansion (.periods ns)).map .ok := by
  rw [encodeWith, expansion, mapM_periodWord, ← map_decode_sampleWords]
  cases ns.mapM canon <;> rfl

/-! ## The obligations -/

/-- An operation with one encoding, which decodes to it. -/
theorem map_decode_singleton {e : Encoded} {i : Instr} (h : decode e = .ok i) : [e].map decode = [i].map .ok := by
  rw [List.map_singleton, List.map_singleton, h]

/-- Settles O2: each format's decoder undoes its encoder, for the fields that carry the operation; the filling of the
others is not looked at. -/
theorem encodingsDecodeToTheirOperation : Obligations.EncodingsDecodeToTheirOperation := by
  intro i u _
  cases i with
  | nop => exact map_decode_singleton (congrArg _ (decodeHostOp_nop u))
  | sample b => exact map_decode_singleton (congrArg _ (decodeHostOp_sampleWord b))
  | eos => exact map_decode_singleton (congrArg _ (decodeHostOp_eos u))
  | reset => exact map_decode_singleton (congrArg _ (decodeHostOp_reset u))
  | period n => exact map_decode_period u n
  | periods ns => exact map_decode_periods u ns
  | sync => exact map_decode_sampleWords [0x64, 0x21]
  | framerSync => rfl
  | rll10 => exact map_decode_singleton (decode_window (r := row10) (by decide) u)
  | rll11 => exact map_decode_singleton (decode_window (r := row11) (by decide) u)
  | rll000 => exact map_decode_singleton (decode_window (r := row000) (by decide) u)
  | rll010 => exact map_decode_singleton (decode_window (r := row010) (by decide) u)
  | rll011 => exact map_decode_singleton (decode_window (r := row011) (by decide) u)
  | rll0010 => exact map_decode_singleton (decode_window (r := row0010) (by decide) u)
  | rll0011 => exact map_decode_singleton (decode_window (r := row0011) (by decide) u)
  | rllStop => exact map_decode_singleton (congrArg _ (decodeWindow_empty u))
  | recNone => rfl
  | recDm => exact map_decode_singleton (congrArg _ ((decodeTag_eq_recDm tagDm).2 rfl))
  | recAm => exact map_decode_singleton (congrArg _ ((decodeTag_eq_recAm _).2 (addressTag_ge u)))
  | recUnk => exact map_decode_singleton (congrArg _ ((decodeTag_eq_recUnk _).2 (unknownTag_le u)))
  | q | framerAppend | framerFlush | render | rllDecode | assemble | classify | crc16 | crc56 | processFrame => rfl

/-- Settles O8: every row fits both windows alike, so the first row that fits is the same. -/
theorem windowBitsPastTheEndAreUnread : Obligations.WindowBitsPastTheEndAreUnread := by
  intro w w' avail h
  rw [decodeWindow, decodeWindow, List.find?_congr fun r hr => CodeRow.fits_congr hr h]

/-- Settles O1. -/
theorem writtenEncodingsDecode : Obligations.WrittenEncodingsDecode := by
  unfold Obligations.WrittenEncodingsDecode
  decide

/-- Settles O3: a word is put together of its two fields, and each of the four operation codes is encoded again. -/
theorem everyHostWordIsAnEncoding : Obligations.EveryHostWordIsAnEncoding := by
  intro w
  obtain ⟨op, data, rfl⟩ : ∃ op data, w = hostWord op data := ⟨_, _, (hostWord_of_fields w).symm⟩
  rw [hostData_hostWord]
  rcases hostOpCode_cases op with rfl | rfl | rfl | rfl
  · rw [decodeHostOp_nop, encodeWith]
  · exact congrArg _ (decodeHostOp_sampleWord data)
  · rw [decodeHostOp_eos, encodeWith]
  · rw [decodeHostOp_reset, encodeWith]

/-- Settles O4: a pair word is the pair `SYNC` for the periods 8 and 3 only. -/
theorem onlyEightThreeIsTheSyncPair : Obligations.OnlyEightThreeIsTheSyncPair := by
  intro prev cur
  have hpair : framePair prev cur = syncPair ↔ prev = 8 ∧ cur = 3 := framePair_eq_syncPair_iff prev cur
  refine ⟨?_, ?_, framePair_toNat prev cur⟩
  · rw [← hpair, decodePair]
    split_ifs <;> simp_all
  · rw [← hpair, decodePair]
    split_ifs <;> simp_all

/-- Settles O5. -/
theorem tagSelectsTheClass : Obligations.TagSelectsTheClass :=
  ⟨rfl, fun t => ⟨decodeTag_eq_recDm t, decodeTag_eq_recAm t, decodeTag_eq_recUnk t⟩⟩

/-- R89, on the patterns as they stand in the waveform. -/
theorem CodeRow.eq_of_pattern_isPrefixOf :
    ∀ r ∈ codeRom, ∀ r' ∈ codeRom, r.pattern.isPrefixOf r'.pattern = true → r = r' := by decide

/-- R91: the count over the 256 full windows. -/
theorem count_codeWord_windows :
    ((List.range 256).filter fun w => decodeWindow (BitVec.ofNat 8 w) 8 ≠ .rllStop).length = 46 := by decide +kernel

/-- R89: two symbols for each bit. -/
theorem CodeRow.pattern_length : ∀ r ∈ codeRom, r.pattern.length = 2 * r.bits.length := by decide

/-- Settles O6. -/
theorem codeTableIsPrefixFree : Obligations.CodeTableIsPrefixFree :=
  ⟨CodeRow.eq_of_pattern_isPrefixOf, count_codeWord_windows, CodeRow.pattern_length⟩

end Sys2Proof
end

section
/-! The events of a frame are sound, and appending them keeps the output sound (20_memory.md R67, 30_encoding.md R97 to
R99). -/

namespace Sys2Proof.Machine

/-- R166: a waveform ends in the trailing separator, so it is never empty. -/
theorem renderFrame_length_pos (f : List Period) : 1 ≤ (renderFrame f).length := by
  simp [renderFrame, renderNats]

/-- R98, R99: the event of a record carries the fields of the class that its first byte selects. -/
theorem recordEvent_sound {buf : List Byte} {e : Event} (h : recordEvent buf = some e) : e.sound := by
  cases buf with
  | nil => cases h
  | cons t rest =>
    rw [recordEvent] at h
    split_ifs at h with hdm ham
    · cases h
      exact ⟨rfl, congrArg some hdm, List.length_take, rfl⟩
    · cases h
      exact ⟨rfl, ⟨t, rfl, ham⟩, List.length_take, rfl⟩
    · cases h
      have hne : t.toNat ≠ 0xF8 := fun heq => hdm (BitVec.eq_of_toNat_eq heq)
      exact ⟨rfl, ⟨t, rfl, by omega⟩, List.length_take, rfl⟩

theorem frameEvents_sound {f : List Period} {e : Event} (he : e ∈ frameEvents f) : e.sound := by
  rcases List.mem_cons.1 he with rfl | he
  · exact renderFrame_length_pos f
  · exact recordEvent_sound (Option.mem_toList.1 he)

/-- The events of a frame can follow any output: they begin with a diagnostic, and the record comes right after it. -/
theorem recordsFollowDiags_append_frameEvents (f : List Period) : ∀ {prev : Bool} {out : List Event},
    recordsFollowDiags prev out → recordsFollowDiags prev (out ++ frameEvents f)
  | _, [], _ => by
    obtain ⟨n, hf⟩ | ⟨n, r, hf⟩ := frameEvents_cases f
    · rw [hf]
      trivial
    · rw [hf]
      exact ⟨rfl, trivial⟩
  | _, .diag _ :: _, h => recordsFollowDiags_append_frameEvents f (prev := true) h
  | _, .record _ :: _, ⟨hprev, h⟩ => ⟨hprev, recordsFollowDiags_append_frameEvents f (prev := false) h⟩

theorem State.OutSound.append_frameEvents {s t : State} (hs : s.OutSound) {f : List Period}
    (hout : t.out = s.out ++ frameEvents f) : t.OutSound where
  events := by
    intro e he
    rw [hout] at he
    rcases List.mem_append.1 he with he | he
    · exact hs.events e he
    · exact frameEvents_sound he
  order := hout ▸ recordsFollowDiags_append_frameEvents f hs.order

/-- Settles O58: a step between steps adds nothing to the output, or the events of one frame. -/
theorem stepKeepsSoundOutput : Obligations.StepKeepsSoundOutput := by
  intro s t hq hs h
  obtain hout | ⟨f, hout⟩ := step_quiet_out hq h
  · exact ⟨hout ▸ hs.events, hout ▸ hs.order⟩
  · exact hs.append_frameEvents hout

end Sys2Proof.Machine
end

section
/-! The pseudo-operations in terms of their periods: `PERIOD n` is the append of `n` or the cut it completes, and a run of
`PERIODS` is the Framer of R155 on the buffer (30_encoding.md R112). -/

namespace Sys2Proof.Machine

/-! ## PERIOD -/

/-- R112: each byte of the table quantizes to its place there. -/
theorem canon_quantize :
    ∀ n : Period, n.toNat ≤ 20 → ∃ b, canon n = some b ∧ quantize b = n := by
  have htable : ∀ n : Period, n.toNat ≤ 20 → (canon n).map quantize = some n := by decide +kernel
  exact fun n hn => Option.map_eq_some_iff.1 (htable n hn)

/-- R112: the table has no byte for a number above 20. -/
theorem canon_eq_none {n : Period} (hn : 20 < n.toNat) : canon n = none := List.getElem?_eq_none hn

theorem periodOp_of_canon {n : Period} {b : Byte} (h : canon n = some b) (s : State) : periodOp n s = sampleOp b s := by
  rw [periodOp, h]

theorem periodOp_of_canon_none {n : Period} (h : canon n = none) (s : State) :
    periodOp n s = .refused (.operandOutOfRange n) := by
  rw [periodOp, h]

/-- A host operation begins with its working registers dead, whatever they held (R25). -/
theorem periodOp_setWork (n : Period) (s : State) (w : Work) : periodOp n (s.setWork w) = periodOp n s := rfl

/-- `PERIOD n` where it does not complete the sync pair: the period stays in the buffer. -/
theorem periodOp_append {s : State} {n : Period} (hn : n.toNat ≤ 20) (hacc : s.accepting = true)
    (hroom : s.full = false) (hmiss : syncHit (s.fb ++ [n]) = false) :
    periodOp n s = .next ((s.setFb (s.fb ++ [n])).setWork Work.dead) := by
  obtain ⟨b, hb, rfl⟩ := canon_quantize n hn
  rw [periodOp_of_canon hb, sampleOp_run hacc hroom, if_neg (by simp [hmiss])]

/-- `PERIOD n` where it completes the sync pair: the frame before the pair leaves as its events. -/
theorem periodOp_cut {s : State} {n : Period} (hn : n.toNat ≤ 20) (hacc : s.accepting = true)
    (hroom : s.full = false) (hhit : syncHit (s.fb ++ [n]) = true) :
    periodOp n s = .next (((s.setFb []).setOut
      (s.out ++ frameEvents ((s.fb ++ [n]).take ((s.fb ++ [n]).length - 2)))).setWork Work.dead) := by
  obtain ⟨b, hb, rfl⟩ := canon_quantize n hn
  rw [periodOp_of_canon hb, sampleOp_run hacc hroom, if_pos hhit]

theorem quiet_setWork_dead (s : State) : (s.setWork Work.dead).quiet := rfl

theorem full_eq_false {s : State} (h : s.frameCap ≠ some s.fb.length) : s.full = false :=
  Bool.eq_false_iff.2 (mt (full_iff s).1 h)

theorem syncHit_append_eq_false {fb : List Period} {n : Period} (h : ¬ (fb.getLast? = some 8 ∧ n = 3)) :
    syncHit (fb ++ [n]) = false :=
  Bool.eq_false_iff.2 (mt (syncHit_append fb n).1 h)

/-- Settles O22: the byte is the table's, and `PERIOD` is defined as `SAMPLE` of it. -/
theorem periodIsSampleOfItsByte : Obligations.PeriodIsSampleOfItsByte := by
  intro n
  constructor
  · intro hn
    obtain ⟨b, hb, hq⟩ := canon_quantize n hn
    exact ⟨b, hb, hq, periodOp_of_canon hb⟩
  · intro hn
    exact periodOp_of_canon_none (canon_eq_none hn)

/-- Settles O23. -/
theorem periodAppends : Obligations.PeriodAppends := by
  intro s n hn hrun hfault hcap hmiss
  exact periodOp_append hn ((accepting_iff s).2 ⟨hrun, hfault⟩) (full_eq_false hcap) (syncHit_append_eq_false hmiss)

/-! ## SYNC -/

/-- Settles O25: the 8 is no 3 and so stays in the buffer, and the 3 after it completes the pair. -/
theorem syncClosesTheFrame : Obligations.SyncClosesTheFrame := by
  intro s hrun hfault hcap
  have hacc : s.accepting = true := (accepting_iff s).2 ⟨hrun, hfault⟩
  have hroom : ∀ fb : List Period, fb.length < s.fb.length + 2 → (s.setFb fb).full = false := by
    intro fb hfb
    refine full_eq_false fun hfull => ?_
    have hle : s.fb.length + 2 ≤ fb.length := hcap _ hfull
    omega
  have hfirst : periodOp 8 s = .next ((s.setFb (s.fb ++ [8])).setWork Work.dead) :=
    periodOp_append (by decide) hacc (hroom s.fb (by omega)) (syncHit_append_eq_false (by simp))
  have hhit : syncHit (s.fb ++ [8] ++ [3]) = true := (syncHit_append _ _).2 ⟨by simp, rfl⟩
  have hsecond : periodOp 3 (s.setFb (s.fb ++ [8])) = .next (((s.setFb []).setOut
      (s.out ++ frameEvents ((s.fb ++ [8] ++ [3]).take ((s.fb ++ [8] ++ [3]).length - 2)))).setWork Work.dead) :=
    periodOp_cut (by decide) hacc (hroom (s.fb ++ [8]) (by simp)) hhit
  rw [exec, execSync, hfirst, andThen_next, periodOp_setWork, hsecond, List.append_assoc, List.singleton_append,
    take_pair]
  rfl

/-! ## PERIODS and the Framer of R155 -/

theorem framesGo_ne_nil (ns : List Period) : ∀ fb : List Period, framesGo fb ns ≠ [] := by
  induction ns with
  | nil => exact fun _ => List.cons_ne_nil _ _
  | cons n ns ih =>
    intro fb
    rw [framesGo]
    split
    · exact List.cons_ne_nil _ _
    · exact ih _

/-- The state after the periods `ns`: the frames that the Framer closes have left as their events, the open one is the
buffer (R155). -/
def State.fed (s : State) (ns : List Period) : State :=
  ((s.setFb ((framesGo s.fb ns).getLastD [])).setOut
    (s.out ++ (framesGo s.fb ns).dropLast.flatMap frameEvents)).setWork Work.dead

theorem State.fed_nil {s : State} (hq : s.quiet) : s.fed [] = s := by
  have hwork : s.setWork Work.dead = s := (State.setWork_of_eq hq).symm
  simpa [State.fed, framesGo] using hwork

theorem State.fed_cons_miss {s : State} {n : Period} (ns : List Period) (h : syncHit (s.fb ++ [n]) = false) :
    s.fed (n :: ns) = ((s.setFb (s.fb ++ [n])).setWork Work.dead).fed ns := by
  rw [State.fed, framesGo, endsInSync_eq, if_neg (by simp [h])]
  rfl

theorem State.fed_cons_hit {s : State} {n : Period} (ns : List Period) (h : syncHit (s.fb ++ [n]) = true) :
    s.fed (n :: ns) = (((s.setFb []).setOut
      (s.out ++ frameEvents ((s.fb ++ [n]).take ((s.fb ++ [n]).length - 2)))).setWork Work.dead).fed ns := by
  obtain ⟨g, gs, hgo⟩ := List.exists_cons_of_ne_nil (framesGo_ne_nil ns [])
  rw [State.fed, framesGo, endsInSync_eq, if_pos h, State.fed, State.setWork_fb, State.setOut_fb, State.setFb_fb, hgo,
    List.dropLast_cons_cons, List.flatMap_cons, ← List.append_assoc]
  rfl

/-- With no bound on the buffer, `PERIODS` is the Framer. -/
theorem periodsOp_eq_fed (ns : List Period) : ∀ {s : State}, s.quiet → s.accepting = true → s.frameCap = none →
    (∀ k ∈ ns, k.toNat ≤ 20) → periodsOp ns s = .next (s.fed ns) := by
  induction ns with
  | nil =>
    intro s hq _ _ _
    rw [periodsOp, State.fed_nil hq]
  | cons n ns ih =>
    intro s hq hacc hcap hok
    obtain ⟨hn, hns⟩ := List.forall_mem_cons.1 hok
    have hroom : s.full = false := full_eq_false (by simp [hcap])
    rw [periodsOp]
    cases hs : syncHit (s.fb ++ [n]) with
    | true =>
      rw [periodOp_cut hn hacc hroom hs, andThen_next, State.fed_cons_hit ns hs]
      exact ih (quiet_setWork_dead _) hacc hcap hns
    | false =>
      rw [periodOp_append hn hacc hroom hs, andThen_next, State.fed_cons_miss ns hs]
      exact ih (quiet_setWork_dead _) hacc hcap hns

/-- Settles O24: the first period begins with the working registers dead, so `PERIODS` runs as from a state between
steps, and there it is the Framer. -/
theorem periodsFeedTheFramer : Obligations.PeriodsFeedTheFramer := by
  intro s n ns hok hrun hfault hcap
  have hdead : exec (.periods (n :: ns)) s = periodsOp (n :: ns) (s.setWork Work.dead) := rfl
  rw [hdead, periodsOp_eq_fed (n :: ns) (quiet_setWork_dead s) ((accepting_iff s).2 ⟨hrun, hfault⟩) hcap hok]
  rfl

/-! ## PERIODS one word a step -/

/-- What stands on the input port has no part in `SAMPLE`: it stays there. -/
theorem sampleOp_setInput (b : Byte) (s : State) (ws : List HostWord) :
    sampleOp b (s.setInput ws) = andThen (sampleOp b s) fun t => .next (t.setInput ws) := by
  cases hacc : s.accepting with
  | false => rw [sampleOp_refused hacc, sampleOp_refused (s := s.setInput ws) hacc]; rfl
  | true =>
    cases hfull : s.full with
    | true => rw [sampleOp_full hacc hfull, sampleOp_full (s := s.setInput ws) hacc hfull]; rfl
    | false =>
      rw [sampleOp_run hacc hfull, sampleOp_run (s := s.setInput ws) hacc hfull, State.setInput_fb, andThen_next]
      split <;> rfl

theorem HostOpEnds.quiet {s t : State} (h : HostOpEnds s t) : t.quiet := by
  cases h <;> rfl

theorem step_sampleWord {s : State} (hq : s.quiet) (b : Byte) (ws : List HostWord) :
    step (s.setInput (sampleWord b :: ws)) = sampleOp b (s.setInput ws) := by
  rw [step, fetchSite_dead (s := s.setInput (sampleWord b :: ws)) hq]
  exact congrArg (exec · (s.setInput ws)) (decodeHostOp_sampleWord b)

theorem run_succ (k : Nat) (s : State) :
    Host.Core.run Sys2Proof.core (k + 1) s = andThen (step s) (Host.Core.run Sys2Proof.core k) := by
  change _ = andThen (Sys2Proof.core.step s) _
  refine (Host.Core.run.eq_2 Sys2Proof.core s k).trans ?_
  cases Sys2Proof.core.step s <;> rfl

theorem mapM_periodWord_cons {n : Period} {ns : List Period} {ws : List HostWord}
    (h : (n :: ns).mapM periodWord = some ws) :
    ∃ b ws', canon n = some b ∧ ns.mapM periodWord = some ws' ∧ ws = sampleWord b :: ws' := by
  rw [List.mapM_cons] at h
  obtain ⟨w, hw, h⟩ := Option.bind_eq_some_iff.1 h
  obtain ⟨ws', hws', h⟩ := Option.bind_eq_some_iff.1 h
  obtain ⟨b, hb, rfl⟩ := Option.map_eq_some_iff.1 hw
  cases h
  exact ⟨b, ws', hb, hws', rfl⟩

/-- The words of `PERIODS`, one a step, and `PERIODS` with those words taken off the port. -/
theorem run_periodWords (rest : List HostWord) (ns : List Period) : ∀ {ws : List HostWord} {s : State}, s.quiet →
    ns.mapM periodWord = some ws →
    Host.Core.run Sys2Proof.core ns.length (s.setInput (ws ++ rest)) = periodsOp ns (s.setInput rest) := by
  induction ns with
  | nil =>
    intro ws s _ hws
    cases hws
    rfl
  | cons n ns ih =>
    intro ws s hq hws
    obtain ⟨b, ws', hb, hws', rfl⟩ := mapM_periodWord_cons hws
    rw [List.length_cons, run_succ, List.cons_append, step_sampleWord hq, sampleOp_setInput, periodsOp,
      periodOp_of_canon hb, sampleOp_setInput b s rest]
    cases h : sampleOp b s with
    | next t => exact ih (sampleOp_ends h).quiet hws'
    | fault r => rfl
    | refused r => rfl

/-- Settles O26. -/
theorem periodsRunAsTheirWords : Obligations.PeriodsRunAsTheirWords := by
  intro s ns ws rest hq hws hin
  have h := run_periodWords rest ns hq hws
  rwa [← hin] at h

end Sys2Proof.Machine
end

section
/-! The four host operations in every state (40_top_level_ops.md R121 to R125), and the step that runs the next of them. -/

namespace Sys2Proof.Machine

/-! ## SAMPLE -/

/-- R141: the quotient of a byte fits in a period. -/
theorem quantize_toNat (b : Byte) : (quantize b).toNat = (2000 * b.toNat + 26665) / 26666 := by
  have hb : b.toNat < 256 := b.isLt
  rw [quantize, BitVec.toNat_ofNat]
  exact Nat.mod_eq_of_lt (by omega)

/-- R142: the range of bytes that quantize to the second period of the sync pair. -/
theorem quantize_eq_three {b : Byte} (hlo : 27 ≤ b.toNat) (hhi : b.toNat ≤ 39) : quantize b = 3 := by
  have hq : (quantize b).toNat = 3 := by
    rw [quantize_toNat]
    omega
  exact BitVec.eq_of_toNat_eq hq

theorem sampleOp_append {s : State} {b : Byte} (hacc : s.accepting = true) (hroom : s.full = false)
    (hmiss : ¬ (s.fb.getLast? = some 8 ∧ quantize b = 3)) :
    sampleOp b s = .next ((s.setFb (s.fb ++ [quantize b])).setWork Work.dead) := by
  rw [sampleOp_run hacc hroom, if_neg (mt (syncHit_append _ _).1 hmiss)]

/-- R152: the 8 that stands last and the 3 that the sample quantizes to are stripped from the frame. -/
theorem sampleOp_cut {s : State} {b : Byte} {f : List Period} (hacc : s.accepting = true) (hroom : s.full = false)
    (hfb : s.fb = f ++ [8]) (hq : quantize b = 3) :
    sampleOp b s = .next (((s.setFb []).setOut (s.out ++ frameEvents f)).setWork Work.dead) := by
  have hhit : syncHit (f ++ [8] ++ [3]) = true := (syncHit_append _ _).2 ⟨by simp, rfl⟩
  rw [sampleOp_run hacc hroom, hfb, hq, if_pos hhit, List.append_assoc, List.singleton_append, take_pair]

theorem accepting_eq_false {s : State} (h : ¬ (s.phase = .run ∧ s.fault = .none)) : s.accepting = false :=
  Bool.eq_false_iff.2 (mt (accepting_iff s).1 h)

/-- Settles O14. -/
theorem sampleAppendsItsPeriod : Obligations.SampleAppendsItsPeriod := by
  intro s b hrun hfault hcap hmiss
  exact sampleOp_append ((accepting_iff s).2 ⟨hrun, hfault⟩) (full_eq_false hcap) hmiss

/-- Settles O15. -/
theorem sampleCutsTheFrame : Obligations.SampleCutsTheFrame := by
  intro s b f hrun hfault hcap hfb hlo hhi
  exact sampleOp_cut ((accepting_iff s).2 ⟨hrun, hfault⟩) (full_eq_false hcap) hfb (quantize_eq_three hlo hhi)

/-- Settles O13: the tests of SAMPLE in their order, each branch by the lemma of its case. -/
theorem sampleFollowsItsRule : Obligations.SampleFollowsItsRule := by
  intro s b
  refine ⟨decodeHostOp_sampleWord b, quantize b, quantize_toNat b, ?_⟩
  split_ifs with haccept hfull hhit
  · exact sampleOp_full ((accepting_iff s).2 haccept) ((full_iff s).2 hfull)
  · obtain ⟨hlast, hq⟩ := hhit
    obtain ⟨f, hfb⟩ := List.getLast?_eq_some_iff.1 hlast
    have hframe : s.fb.dropLast = f := by rw [hfb, List.dropLast_concat]
    rw [hframe]
    exact sampleOp_cut ((accepting_iff s).2 haccept) (full_eq_false hfull) hfb hq
  · exact sampleOp_append ((accepting_iff s).2 haccept) (full_eq_false hfull) hhit
  · exact sampleOp_refused (accepting_eq_false haccept)

/-! ## EOS, RESET and NOP -/

/-- Settles O17. -/
theorem eosFlushesTheBuffer : Obligations.EosFlushesTheBuffer := by
  intro s u
  refine ⟨decodeHostOp_eos u, ?accepted, ?refused⟩
  case accepted =>
    intro hrun hfault
    exact eosOp_run ((accepting_iff s).2 ⟨hrun, hfault⟩)
  case refused =>
    intro hrefused
    exact eosOp_refused (accepting_eq_false hrefused)

/-- Settles O10. -/
theorem resetRestoresTheResetState : Obligations.ResetRestoresTheResetState :=
  fun s u => ⟨decodeHostOp_reset u, execReset_eq s⟩

theorem execNop_quiet {s : State} (hq : s.quiet) : exec .nop s = .next s := by
  rw [execNop_eq, ← State.setWork_of_eq hq]

/-- Settles O12. -/
theorem nopChangesNothing : Obligations.NopChangesNothing :=
  fun s u => ⟨decodeHostOp_nop u, execNop_eq s, execNop_quiet⟩

/-! ## Acceptance -/

/-- R121, R256: an accepted SAMPLE completes, with the overflow where the buffer is full. -/
theorem exists_sampleOp_next {s : State} (b : Byte) (hacc : s.accepting = true) : ∃ t, sampleOp b s = .next t := by
  cases hfull : s.full with
  | true => exact ⟨_, sampleOp_full hacc hfull⟩
  | false => exact ⟨_, sampleOp_run hacc hfull⟩

theorem sampleOp_next_iff (b : Byte) (s : State) :
    (∃ t, sampleOp b s = .next t) ↔ s.phase = .run ∧ s.fault = .none := by
  rw [← accepting_iff]
  exact ⟨fun ⟨_, h⟩ => (sampleOp_next h).1, exists_sampleOp_next b⟩

theorem eosOp_next_iff (s : State) : (∃ t, eosOp s = .next t) ↔ s.phase = .run ∧ s.fault = .none := by
  rw [← accepting_iff]
  exact ⟨fun ⟨_, h⟩ => (eosOp_next h).1, fun hacc => ⟨_, eosOp_run hacc⟩⟩

/-- Settles O18. -/
theorem acceptanceTable : Obligations.AcceptanceTable := by
  intro s b
  refine ⟨⟨_, execNop_eq s⟩, ⟨_, execReset_eq s⟩, sampleOp_next_iff b s, eosOp_next_iff s, ?_⟩
  intro hrefused
  have hacc : s.accepting = false := accepting_eq_false hrefused
  exact ⟨⟨_, sampleOp_refused hacc⟩, ⟨_, eosOp_refused hacc⟩⟩

/-! ## The step between steps -/

theorem step_waiting {s : State} (hq : s.quiet) (h : s.input = []) : step s = .next s := by
  rw [step, fetchSite_dead hq, h]
  rfl

theorem step_port {s : State} {w : HostWord} {rest : List HostWord} (hq : s.quiet) (h : s.input = w :: rest) :
    step s = exec (decodeHostOp w) (s.setInput rest) := by
  rw [step, fetchSite_dead hq, h]
  rfl

/-- Settles O53. -/
theorem stepRunsTheNextHostOperation : Obligations.StepRunsTheNextHostOperation :=
  fun _ hq => ⟨fun _ _ h => step_port hq h, step_waiting hq⟩

theorem sampleOp_ne_fault (b : Byte) (s : State) (r : Fault) : sampleOp b s ≠ .fault r := by
  cases hacc : s.accepting with
  | false => simp [sampleOp_refused hacc]
  | true =>
    obtain ⟨t, ht⟩ := exists_sampleOp_next b hacc
    simp [ht]

theorem eosOp_ne_fault (s : State) (r : Fault) : eosOp s ≠ .fault r := by
  cases hacc : s.accepting with
  | false => simp [eosOp_refused hacc]
  | true => simp [eosOp_run hacc]

/-- R25: each host operation writes the working registers that it reads. -/
theorem exec_hostOp_ne_fault (w : HostWord) (s : State) (r : Fault) : exec (decodeHostOp w) s ≠ .fault r := by
  rcases decodeHostOp_cases w with hw | hw | hw | hw <;> rw [hw]
  · simp [execNop_eq]
  · exact sampleOp_ne_fault _ s r
  · exact eosOp_ne_fault s r
  · simp [execReset_eq]

/-- Settles O20: a step between steps waits or runs a host operation. -/
theorem hostStepsNeverFault : Obligations.HostStepsNeverFault := by
  intro s r hq
  cases hi : s.input with
  | nil => simp [step_waiting hq hi]
  | cons w rest =>
    rw [step_port hq hi]
    exact exec_hostOp_ne_fault w _ r

end Sys2Proof.Machine
end

section
/-! The window decoder against the waveform: it selects the row whose whole pattern stands at the cursor, and stops where
none does (30_encoding.md R87, R88, 44_rll_decoder.md R177). -/

namespace Sys2Proof
open Machine

/-! ## The window and the columns of the code table, symbol by symbol -/

theorem Symbol.bit_injective {x y : Symbol} (h : x.bit = y.bit) : x = y := by
  cases x <;> cases y <;> trivial

theorem symbolBit_of_lt {wf : List Symbol} {i : Nat} (h : i < wf.length) : symbolBit wf i = wf[i].bit := by
  rw [symbolBit, List.getElem?_eq_getElem h]

theorem symbolBit_of_ge {wf : List Symbol} {i : Nat} (h : wf.length ≤ i) : symbolBit wf i = false := by
  rw [symbolBit, List.getElem?_eq_none h]

/-- R87: `w[7]` is the symbol at the cursor, and the others follow it. -/
theorem windowWord_getLsbD (wf : List Symbol) (pos : Nat) :
    ∀ i < 8, (windowWord wf pos).getLsbD (7 - i) = symbolBit wf (pos + i) := by
  intro i hi
  unfold windowWord
  -- the lemma on appended words needs the width as the sum that the eight single bits make
  change BitVec.getLsbD (w := 1 + 1 + 1 + 1 + 1 + 1 + 1 + 1) _ _ = _
  simp only [BitVec.getLsbD_append, BitVec.getLsbD_ofBool]
  interval_cases i <;> simp

/-- R90: the match column is the pattern as bits, filled with 0. -/
theorem CodeRow.value_getLsbD : ∀ r ∈ codeRom, ∀ i < 8, r.value.getLsbD (7 - i) = symbolBit r.pattern i := by decide

/-- R90: the mask column is 1 on the consumed symbols. -/
theorem CodeRow.mask_getLsbD : ∀ r ∈ codeRom, ∀ i < 8, r.mask.getLsbD (7 - i) = decide (i < r.len) := by decide

theorem CodeRow.instr_ne_rllStop : ∀ r ∈ codeRom, r.instr ≠ .rllStop := by decide

theorem CodeRow.len_le : ∀ r ∈ codeRom, r.len ≤ 8 := by decide

theorem eq_of_getLsbD_reversed {x y : BitVec 8} (h : ∀ i < 8, x.getLsbD (7 - i) = y.getLsbD (7 - i)) : x = y := by
  refine BitVec.eq_of_getLsbD_eq fun j hj => ?_
  have hbit := h (7 - j) (by omega)
  rwa [show 7 - (7 - j) = j by omega] at hbit

/-- The masked comparison of the window is the comparison of the symbols under the pattern. -/
theorem CodeRow.windowWord_and_mask {r : CodeRow} (hr : r ∈ codeRom) (wf : List Symbol) (pos : Nat) :
    windowWord wf pos &&& r.mask = r.value ↔ ∀ i < r.len, symbolBit wf (pos + i) = symbolBit r.pattern i := by
  constructor
  · intro h i hi
    have hi8 : i < 8 := Nat.lt_of_lt_of_le hi (CodeRow.len_le r hr)
    have hbit : (windowWord wf pos &&& r.mask).getLsbD (7 - i) = r.value.getLsbD (7 - i) := by rw [h]
    rwa [BitVec.getLsbD_and, windowWord_getLsbD wf pos i hi8, CodeRow.mask_getLsbD r hr i hi8, decide_eq_true hi,
      Bool.and_true, CodeRow.value_getLsbD r hr i hi8] at hbit
  · intro h
    refine eq_of_getLsbD_reversed fun i hi8 => ?_
    rw [BitVec.getLsbD_and, windowWord_getLsbD wf pos i hi8, CodeRow.mask_getLsbD r hr i hi8,
      CodeRow.value_getLsbD r hr i hi8]
    by_cases hi : i < r.len
    · rw [decide_eq_true hi, Bool.and_true, h i hi]
    · rw [decide_eq_false hi, Bool.and_false, symbolBit_of_ge (Nat.not_lt.1 hi)]

/-! ## The fit of the window and the pattern match -/

/-- R177: a whole pattern stands at the cursor where it ends inside the waveform and its symbols agree. -/
theorem memRead_eq_pattern_iff (r : CodeRow) (wf : List Symbol) (pos : Nat) :
    memRead wf pos r.len = some r.pattern ↔
      pos + r.len ≤ wf.length ∧ ∀ i < r.len, symbolBit wf (pos + i) = symbolBit r.pattern i := by
  rw [memRead_eq_some]
  refine and_congr_right fun hle => ?_
  constructor
  · intro h i hi
    rw [symbolBit, symbolBit, ← h, List.getElem?_take_of_lt hi, List.getElem?_drop]
  · intro h
    have hlen : ((wf.drop pos).take r.len).length = r.pattern.length := by
      rw [List.length_take, List.length_drop, ← CodeRow.len]
      omega
    refine List.ext_getElem hlen fun i _ hi => Symbol.bit_injective ?_
    have hbit := h i hi
    rw [symbolBit_of_lt hi, symbolBit_of_lt (Nat.lt_of_lt_of_le (Nat.add_lt_add_left hi pos) hle)] at hbit
    rwa [List.getElem_take, List.getElem_drop]

/-- R88, R177: a row fits the window at the cursor where its whole pattern stands there. -/
theorem CodeRow.fits_windowWord {r : CodeRow} (hr : r ∈ codeRom) (wf : List Symbol) (pos : Nat) :
    r.fits (windowWord wf pos) (windowAvail wf pos) = matchRow r wf pos := by
  have havail : r.len ≤ windowAvail wf pos ↔ pos + r.len ≤ wf.length := by
    have hpos := CodeRow.len_pos r hr
    have hle := CodeRow.len_le r hr
    rw [windowAvail]
    omega
  rw [Bool.eq_iff_iff, CodeRow.fits_iff, matchRow, beq_iff_eq, memRead_eq_pattern_iff, havail,
    CodeRow.windowWord_and_mask hr]

theorem decodeWindow_of_matchAt {wf : List Symbol} {pos : Nat} {r : CodeRow} (h : matchAt wf pos = some r) :
    decodeWindow (windowWord wf pos) (windowAvail wf pos) = r.instr := by
  rw [decodeWindow, List.find?_congr fun r hr => CodeRow.fits_windowWord hr wf pos, ← matchAt, h]

theorem decodeWindow_of_matchAt_none {wf : List Symbol} {pos : Nat} (h : matchAt wf pos = none) :
    decodeWindow (windowWord wf pos) (windowAvail wf pos) = .rllStop := by
  rw [decodeWindow, List.find?_congr fun r hr => CodeRow.fits_windowWord hr wf pos, ← matchAt, h]

end Sys2Proof
end

section
/-! The processing of a frame: its stages in order, and the same stages run one code word and then one record class a step
(40_top_level_ops.md R126, 44_rll_decoder.md R186, log entry 6). -/

namespace Sys2Proof.Machine

/-! ## The stages -/

/-- R126: the stages before the Classifier leave their outputs in the registers. -/
theorem processFrameOp_eq_classifyOp {s : State} {f : List Period} {ev : List Event} (hf : s.work.f = some f)
    (he : s.work.ev = some ev) :
    processFrameOp s = classifyOp ((((s.setWf (renderFrame f)).setEv (ev ++ [.diag (renderFrame f).length])).setCursor
      (rllDecodeFrom (renderFrame f)).1 (rllDecodeFrom (renderFrame f)).2).setBuf (frameRecord f)) := by
  rw [processFrameOp, renderOp_live hf, andThen_next, diagOp_live (s := s.setWf (renderFrame f)) rfl he, andThen_next,
    rllDecodeOp_live (wf := renderFrame f) rfl, andThen_next,
    assembleOp_live (bits := (rllDecodeFrom (renderFrame f)).2) rfl, andThen_next, frameRecord]

/-- R126: the record event, if there is one, comes after the diagnostic. -/
theorem frameWork_ev {f : List Period} {w : Work} {ev : List Event} (he : w.ev = some ev) :
    (frameWork f w).ev = some (ev ++ .diag (renderFrame f).length :: (recordEvent (frameRecord f)).toList) := by
  rw [frameWork, he, Option.map_some, frameEvents]

/-- Settles O52: the diagnostic is emitted with the waveform live, so it is the emission of its length. -/
theorem processFrameRunsEveryStage : Obligations.ProcessFrameRunsEveryStage := by
  intro s f ev hf he
  have hrender : exec .render s = .next (s.setWf (renderFrame f)) := renderOp_live hf
  refine ⟨?_, processFrameOp_live hf he, frameWork_ev he⟩
  rw [hrender, andThen_next, exec, execProcessFrame, processFrameOp, renderOp_live hf, andThen_next]
  rfl

/-! ## The decode loop -/

theorem matchRow_iff (r : CodeRow) (wf : List Symbol) (pos : Nat) :
    matchRow r wf pos = true ↔ memRead wf pos r.len = some r.pattern := by
  rw [matchRow, beq_iff_eq]

theorem matchAt_mem {wf : List Symbol} {pos : Nat} {r : CodeRow} (h : matchAt wf pos = some r) : r ∈ codeRom :=
  List.mem_of_find?_eq_some h

theorem matchRow_of_matchAt {wf : List Symbol} {pos : Nat} {r : CodeRow} (h : matchAt wf pos = some r) :
    matchRow r wf pos = true :=
  List.find?_some (p := fun r => matchRow r wf pos) h

theorem matchAt_eq_none_iff (wf : List Symbol) (pos : Nat) :
    matchAt wf pos = none ↔ ∀ r ∈ codeRom, memRead wf pos r.len ≠ some r.pattern := by
  simp only [matchAt, List.find?_eq_none, matchRow_iff, ne_eq]

/-- R187: a word consumes symbols that exist, at least one. -/
theorem matchAt_lt {wf : List Symbol} {pos : Nat} {r : CodeRow} (h : matchAt wf pos = some r) :
    pos < pos + r.len ∧ pos + r.len ≤ wf.length :=
  ⟨Nat.lt_add_of_pos_right (CodeRow.len_pos r (matchAt_mem h)),
    (memRead_eq_some.1 ((matchRow_iff r wf pos).1 (matchRow_of_matchAt h))).1⟩

/-- R186: with a turn for each symbol left, the bounded loop stops because no word matches. -/
theorem decodes_rllLoop {wf : List Symbol} (fuel : Nat) : ∀ {pos : Nat} {bits : List Bool}, wf.length ≤ pos + fuel →
    Decodes wf pos bits (rllLoop fuel wf pos bits).1 (rllLoop fuel wf pos bits).2 := by
  induction fuel with
  | zero =>
    intro pos bits hfuel
    refine .stop ((matchAt_eq_none_iff wf pos).1 (Option.eq_none_iff_forall_not_mem.2 fun r hr => ?_))
    obtain ⟨hlt, hle⟩ := matchAt_lt hr
    omega
  | succ fuel ih =>
    intro pos bits hfuel
    rw [rllLoop]
    cases hm : matchAt wf pos with
    | none => exact .stop ((matchAt_eq_none_iff wf pos).1 hm)
    | some r =>
      obtain ⟨hlt, -⟩ := matchAt_lt hm
      exact .word r (matchAt_mem hm) ((matchRow_iff r wf pos).1 (matchRow_of_matchAt hm)) (ih (by omega))

theorem decodes_rllDecodeFrom (wf : List Symbol) :
    Decodes wf startOffset [] (rllDecodeFrom wf).1 (rllDecodeFrom wf).2 :=
  decodes_rllLoop wf.length (Nat.le_add_left _ _)

/-- R89: the row whose pattern stands at the cursor is the one the loop selects. -/
theorem matchAt_of_memRead {wf : List Symbol} {pos : Nat} {r : CodeRow} (hr : r ∈ codeRom)
    (h : memRead wf pos r.len = some r.pattern) : matchAt wf pos = some r := by
  cases hm : matchAt wf pos with
  | none => exact absurd h ((matchAt_eq_none_iff wf pos).1 hm r hr)
  | some r' =>
    have hfits : r.fits (windowWord wf pos) (windowAvail wf pos) = true :=
      (CodeRow.fits_windowWord hr wf pos).trans ((matchRow_iff r wf pos).2 h)
    have hfits' : r'.fits (windowWord wf pos) (windowAvail wf pos) = true :=
      (CodeRow.fits_windowWord (matchAt_mem hm) wf pos).trans (matchRow_of_matchAt hm)
    rw [CodeRow.eq_of_fits hr (matchAt_mem hm) hfits hfits']

/-! ## One step of the decoder and of the Classifier -/

/-- R178 to R184: the seven code words have one meaning, each with its row. -/
theorem exec_codeWord {r : CodeRow} (hr : r ∈ codeRom) (s : State) : exec r.instr s = codeWordOp r s := by
  simp only [codeRom, List.mem_cons, List.not_mem_nil, or_false] at hr
  rcases hr with rfl | rfl | rfl | rfl | rfl | rfl | rfl <;> rfl

/-- The step while a frame is decoded, where a code word stands at the cursor. -/
theorem step_codeWord {s : State} {wf : List Symbol} {pos : Nat} {bits : List Bool} {r : CodeRow}
    (hbuf : s.work.buf = none) (hwf : s.work.wf = some wf) (hm : matchAt wf pos = some r) :
    step (s.setCursor pos bits) = .next (s.setCursor (pos + r.len) (bits ++ r.bits)) := by
  have hr : r ∈ codeRom := matchAt_mem hm
  rw [step_cursor (fetchSite_cursor (s := s.setCursor pos bits) hbuf hwf rfl), decodeWindow_of_matchAt hm,
    exec_codeWord hr, codeWordOp_live (s := s.setCursor pos bits) hwf rfl rfl, if_pos (matchRow_of_matchAt hm),
    andThen_next, afterCodeWord, if_neg (CodeRow.instr_ne_rllStop r hr)]
  rfl

/-- The step while a frame is decoded, where no code word stands at the cursor. -/
theorem step_rllStop {s : State} {wf : List Symbol} {pos : Nat} {bits : List Bool}
    (hbuf : s.work.buf = none) (hwf : s.work.wf = some wf) (hm : matchAt wf pos = none) :
    step (s.setCursor pos bits) = .next ((s.setCursor pos bits).setBuf (assembleBits bits)) := by
  have hstop : exec .rllStop (s.setCursor pos bits) = .next (s.setCursor pos bits) :=
    stopOp_live (s := s.setCursor pos bits) hwf rfl rfl
  rw [step_cursor (fetchSite_cursor (s := s.setCursor pos bits) hbuf hwf rfl), decodeWindow_of_matchAt_none hm, hstop,
    andThen_next, afterCodeWord, if_pos rfl, assembleOp_live (State.setCursor_work_bits ..)]

/-- R210: the class that the tag selects is the one that `CLASSIFY` runs. -/
theorem exec_decodeTag {s : State} {buf : List Byte} (h : s.work.buf = some buf) :
    exec (decodeTag buf.head?) s = classifyOp s := by
  rw [classifyOp, h, withLive_some]
  cases buf with
  | nil => rfl
  | cons t rest =>
    have heq : t = 0xF8 ↔ t.toNat = 0xF8 := BitVec.toNat_inj.symm
    rw [List.head?_cons, recordEmpty, List.isEmpty_cons, if_neg Bool.false_ne_true, tagEq_cons, tagGt_cons,
      decodeTag_some]
    simp only [decide_eq_true_eq, heq]
    split_ifs with hdm ham
    · rfl
    · rfl
    · rfl

theorem step_classify {s : State} {buf : List Byte} (h : s.work.buf = some buf) :
    step s = andThen (classifyOp s) endOp := by
  rw [step_tag (fetchSite_tag h), exec_decodeTag h]

/-! ## The refinement -/

theorem run_succ_of_step_next {s t : State} (k : Nat) (h : step s = .next t) :
    Host.Core.run Sys2Proof.core (k + 1) s = Host.Core.run Sys2Proof.core k t :=
  (run_succ k s).trans (congrArg (andThen · (Host.Core.run Sys2Proof.core k)) h)

theorem run_one (s : State) : Host.Core.run Sys2Proof.core 1 s = step s := by
  refine (run_succ 0 s).trans ?_
  cases step s <;> rfl

/-- A state inside the decoding of a frame reaches the end of its host operation: one step for each code word, one for
the stop with the assembly, one for the record class. -/
theorem exists_run_of_decodes {s : State} {wf : List Symbol} {pos pos' : Nat} {bits bits' : List Bool}
    (hbuf : s.work.buf = none) (hwf : s.work.wf = some wf) (h : Decodes wf pos bits pos' bits') :
    ∃ n, Host.Core.run Sys2Proof.core n (s.setCursor pos bits) =
      andThen (classifyOp ((s.setCursor pos' bits').setBuf (assembleBits bits'))) endOp := by
  induction h with
  | stop hstop =>
    refine ⟨2, ?_⟩
    rw [run_succ_of_step_next 1 (step_rllStop hbuf hwf ((matchAt_eq_none_iff wf _).2 hstop)), run_one,
      step_classify (State.setBuf_work_buf ..)]
  | word r hr hm _ ih =>
    obtain ⟨n, hn⟩ := ih
    exact ⟨n + 1, (run_succ_of_step_next n (step_codeWord hbuf hwf (matchAt_of_memRead hr hm))).trans hn⟩

/-- Settles O55: the steps follow the loop that RLLDECODE runs at once, and then the class that CLASSIFY selects. -/
theorem steppingThroughAFrameIsProcessFrame : Obligations.SteppingThroughAFrameIsProcessFrame := by
  intro s f ev
  have hwhole := processFrameOp_eq_classifyOp (s := s.setWork { Work.dead with f := some f, ev := some ev }) rfl rfl
  obtain ⟨n, hn⟩ := exists_run_of_decodes (s := s.setWork { Work.dead with
      f := some f, wf := some (renderFrame f), ev := some (ev ++ [.diag (renderFrame f).length]) })
    rfl rfl (decodes_rllDecodeFrom (renderFrame f))
  refine ⟨n, hn.trans ?_⟩
  exact congrArg (andThen · endOp) hwhole.symm

end Sys2Proof.Machine
end

section
/-! Whole streams: samples and NOPs in any order are the Framer on the quantized samples, and the events of the frames are
counted (40_top_level_ops.md R127, R128). -/

namespace Sys2Proof.Machine

/-! ## The stream -/

theorem State.fed_quiet (s : State) (ns : List Period) : (s.fed ns).quiet := rfl

/-- The Framer takes the periods one at a time. -/
theorem State.fed_cons {s : State} (n : Period) (ns : List Period) : s.fed (n :: ns) = (s.fed [n]).fed ns := by
  cases hs : syncHit (s.fb ++ [n]) with
  | true => rw [State.fed_cons_hit ns hs, State.fed_cons_hit [] hs, State.fed_nil (quiet_setWork_dead _)]
  | false => rw [State.fed_cons_miss ns hs, State.fed_cons_miss [] hs, State.fed_nil (quiet_setWork_dead _)]

/-- With no bound on the buffer, `SAMPLE` is the Framer on one period. -/
theorem sampleOp_eq_fed {s : State} {b : Byte} (hacc : s.accepting = true) (hcap : s.frameCap = none) :
    sampleOp b s = .next (s.fed [quantize b]) := by
  rw [sampleOp_run hacc (full_eq_false (by simp [hcap]))]
  cases hs : syncHit (s.fb ++ [quantize b]) with
  | true => rw [State.fed_cons_hit [] hs, State.fed_nil (quiet_setWork_dead _), if_pos rfl]
  | false => rw [State.fed_cons_miss [] hs, State.fed_nil (quiet_setWork_dead _), if_neg Bool.false_ne_true]

theorem wordPeriods_cons_nop {w : HostWord} (ws : List HostWord) (h : decodeHostOp w = .nop) :
    wordPeriods (w :: ws) = wordPeriods ws := by
  rw [wordPeriods, List.filterMap_cons_none (by rw [h])]
  rfl

theorem wordPeriods_cons_sample {w : HostWord} {b : Byte} (ws : List HostWord) (h : decodeHostOp w = .sample b) :
    wordPeriods (w :: ws) = quantize b :: wordPeriods ws := by
  rw [wordPeriods, List.filterMap_cons_some (b := quantize b) (by rw [h])]
  rfl

/-- R127: SAMPLEs and NOPs at the front of the input port are the Framer on the samples' periods. -/
theorem run_words (k : Nat) (rest : List HostWord) (ws : List HostWord) : ∀ {s : State}, s.quiet →
    s.accepting = true → s.frameCap = none →
    (∀ x ∈ ws, decodeHostOp x = .nop ∨ ∃ b, decodeHostOp x = .sample b) →
    Host.Core.run Sys2Proof.core (ws.length + k) (s.setInput (ws ++ rest)) =
      Host.Core.run Sys2Proof.core k ((s.fed (wordPeriods ws)).setInput rest) := by
  induction ws with
  | nil =>
    intro s hq _ _ _
    rw [List.length_nil, Nat.zero_add, List.nil_append, wordPeriods, List.filterMap_nil, State.fed_nil hq]
  | cons w ws ih =>
    intro s hq hacc hcap hws
    obtain ⟨hw, hws⟩ := List.forall_mem_cons.1 hws
    have hstep : step (s.setInput (w :: ws ++ rest)) = exec (decodeHostOp w) (s.setInput (ws ++ rest)) :=
      step_port (s := s.setInput (w :: ws ++ rest)) hq rfl
    rw [List.length_cons, Nat.add_right_comm]
    rcases hw with hw | ⟨b, hw⟩
    · rw [hw, execNop_quiet (s := s.setInput (ws ++ rest)) hq] at hstep
      rw [run_succ_of_step_next _ hstep, wordPeriods_cons_nop ws hw]
      exact ih hq hacc hcap hws
    · have hsample : exec (.sample b) (s.setInput (ws ++ rest)) = .next ((s.fed [quantize b]).setInput (ws ++ rest)) :=
        sampleOp_eq_fed (s := s.setInput (ws ++ rest)) hacc hcap
      rw [hw, hsample] at hstep
      rw [run_succ_of_step_next _ hstep, wordPeriods_cons_sample ws hw,
        State.fed_cons (quantize b) (wordPeriods ws)]
      exact ih (State.fed_quiet s _) hacc hcap hws

theorem flatMap_dropLast_append_getLastD {α β : Type} {xs : List α} (h : xs ≠ []) (g : α → List β) (d : α) :
    xs.dropLast.flatMap g ++ g (xs.getLastD d) = xs.flatMap g := by
  obtain rfl | ⟨ys, y, rfl⟩ := List.eq_nil_or_concat xs
  · exact absurd rfl h
  · simp

/-- EOS closes the frame that the Framer has left open: then all frames have left as their events. -/
theorem eosOp_fed {s : State} (hacc : s.accepting = true) (ps : List Period) : eosOp (s.fed ps) = .next
    ((((s.setPhase .done).setFb []).setOut (s.out ++ (framesGo s.fb ps).flatMap frameEvents)).setWork Work.dead) := by
  have hevents := flatMap_dropLast_append_getLastD (framesGo_ne_nil ps s.fb) frameEvents []
  rw [eosOp_run (s := s.fed ps) hacc, ← hevents, ← List.append_assoc]
  rfl

/-- Settles O59: the words before the EOS feed the Framer from an empty buffer, and the EOS closes its last frame. -/
theorem streamEmitsTheEventsOfItsFrames : Obligations.StreamEmitsTheEventsOfItsFrames := by
  intro s ws rest w hq hrun hfault hfb hcap hws hw hin
  have hacc : s.accepting = true := (accepting_iff s).2 ⟨hrun, hfault⟩
  have hwords : Host.Core.run Sys2Proof.core (ws.length + 1) (s.setInput (ws ++ w :: rest)) =
      step ((s.fed (wordPeriods ws)).setInput (w :: rest)) :=
    (run_words 1 (w :: rest) ws hq hacc hcap hws).trans (run_one _)
  have hstep : step ((s.fed (wordPeriods ws)).setInput (w :: rest)) =
      exec (decodeHostOp w) ((s.setInput rest).fed (wordPeriods ws)) := 
    step_port (s := (s.fed (wordPeriods ws)).setInput (w :: rest)) (State.fed_quiet s (wordPeriods ws)) rfl
  have heos : exec .eos ((s.setInput rest).fed (wordPeriods ws)) = .next (((((s.setInput rest).setPhase .done).setFb
      []).setOut (s.out ++ (framesGo s.fb (wordPeriods ws)).flatMap frameEvents)).setWork Work.dead) :=
    eosOp_fed (s := s.setInput rest) hacc (wordPeriods ws)
  rw [← hin, State.setInput_self] at hwords
  rw [hwords, hstep, hw, heos, frames, ← hfb, ← hq]
  rfl

/-! ## The count of events -/

theorem recordEvent_eq_none_iff (buf : List Byte) : recordEvent buf = none ↔ buf = [] := by
  cases buf with
  | nil => simp [recordEvent]
  | cons t rest =>
    rw [recordEvent]
    split_ifs <;> simp

/-- R128: the events of a frame by their kinds: one diagnostic, and one record where the frame has a byte. -/
theorem map_kind_frameEvents (f : List Period) :
    (frameEvents f).map Event.kind = if frameRecord f = [] then [4] else [4, 6] := by
  rw [frameEvents]
  obtain h | ⟨r, h⟩ := recordEvent_cases (frameRecord f)
  · rw [h, if_pos ((recordEvent_eq_none_iff _).1 h)]
    rfl
  · have hne : frameRecord f ≠ [] := fun hnil => by simp [(recordEvent_eq_none_iff _).2 hnil] at h
    rw [h, if_neg hne]
    rfl

theorem countP_kind (k : Nat) (es : List Event) : es.countP (fun e => e.kind == k) = (es.map Event.kind).count k := by
  rw [List.count, List.countP_map]
  rfl

theorem countP_diag_frameEvents (f : List Period) : (frameEvents f).countP (fun e => e.kind == 4) = 1 := by
  rw [countP_kind, map_kind_frameEvents]
  split_ifs <;> rfl

theorem countP_record_frameEvents (f : List Period) :
    (frameEvents f).countP (fun e => e.kind == 6) = if frameRecord f = [] then 0 else 1 := by
  rw [countP_kind, map_kind_frameEvents]
  split_ifs <;> rfl

theorem countP_diag_flatMap (fs : List (List Period)) :
    (fs.flatMap frameEvents).countP (fun e => e.kind == 4) = fs.length := by
  induction fs with
  | nil => rfl
  | cons f fs ih =>
    rw [List.flatMap_cons, List.countP_append, countP_diag_frameEvents, ih, List.length_cons, Nat.add_comm]

theorem countP_record_flatMap (fs : List (List Period)) :
    (fs.flatMap frameEvents).countP (fun e => e.kind == 6) = (fs.filter fun f => frameRecord f ≠ []).length := by
  induction fs with
  | nil => rfl
  | cons f fs ih =>
    rw [List.flatMap_cons, List.countP_append, countP_record_frameEvents, ih, List.filter_cons]
    by_cases h : frameRecord f = []
    · simp [h]
    · simp [h, Nat.add_comm]

/-! ## The count of frames -/

/-- How many places there are where an 8 is followed by a 3. -/
def syncPlaces (ps : List Period) : Nat :=
  ((List.range ps.length).filter fun i => ps[i]? = some 8 ∧ ps[i + 1]? = some 3).length

/-- The first period begins a pair or not, and the other places are those of the rest. -/
theorem syncPlaces_cons (p : Period) (ps : List Period) :
    syncPlaces (p :: ps) = (if p = 8 ∧ ps.head? = some 3 then 1 else 0) + syncPlaces ps := by
  have hrest : ((List.range ps.length).map Nat.succ).filter
      (fun i => (p :: ps)[i]? = some 8 ∧ (p :: ps)[i + 1]? = some 3) =
      ((List.range ps.length).filter fun i => ps[i]? = some 8 ∧ ps[i + 1]? = some 3).map Nat.succ :=
    List.filter_map
  rw [syncPlaces, syncPlaces, List.length_cons, List.range_succ_eq_map, List.filter_cons, hrest]
  simp only [List.getElem?_cons_succ, ← List.head?_eq_getElem?, List.head?_cons, Option.some.injEq, decide_eq_true_eq]
  split_ifs <;> simp [Nat.add_comm]

/-- R155: each place of a pair closes a frame, where the buffer's last period counts as standing before the stream. -/
theorem framesGo_length (ps : List Period) : ∀ fb : List Period, (framesGo fb ps).length =
    1 + ((if fb.getLast? = some 8 ∧ ps.head? = some 3 then 1 else 0) + syncPlaces ps) := by
  induction ps with
  | nil => intro fb; simp [framesGo, syncPlaces]
  | cons p ps ih =>
    intro fb
    rw [framesGo, endsInSync_eq, syncPlaces_cons]
    by_cases h : fb.getLast? = some 8 ∧ p = 3
    · obtain ⟨hlast, rfl⟩ := h
      rw [if_pos ((syncHit_append fb 3).2 ⟨hlast, rfl⟩), List.length_cons, ih]
      simp [hlast, Nat.add_comm]
    · rw [if_neg (mt (syncHit_append fb p).1 h), ih]
      simp only [List.getLast?_concat, List.head?_cons, Option.some.injEq, if_neg h, Nat.zero_add]

/-- R128: the frames number one more than the sync hits. -/
theorem frames_length (ps : List Period) : (frames ps).length = 1 + syncPlaces ps := by
  rw [frames, framesGo_length]
  simp

/-- Settles O60. -/
theorem oneDiagnosticPerFrame : Obligations.OneDiagnosticPerFrame :=
  fun ps => ⟨countP_diag_flatMap (frames ps), countP_record_flatMap (frames ps), frames_length ps⟩

end Sys2Proof.Machine
end

section
/-! The Quantizer (41_quantizer.md R140 to R142): the integer form is the rational formula rounded, and the first bytes of
its ranges are the table's. -/

namespace Sys2Proof.Machine

/-! ## The rational formula -/

/-- R140: Q has no way out but to write P. -/
theorem exec_q (b : Byte) (s : State) : exec (.q b) s = .next (s.setP (quantize b)) := rfl

/-- R141: rounding is the floor of the formula moved up by one half, which is a quotient of natural numbers. -/
theorem round_sample_eq_div (n : Nat) :
    round (((n : ℚ) + 6666 / 1000) / (13333 / 1000)) = (((2000 * n + 26665) / 26666 : Nat) : ℤ) := by
  have hquot : ((n : ℚ) + 6666 / 1000) / (13333 / 1000) + 1 / 2 = ((2000 * n + 26665 : Nat) : ℚ) / (26666 : Nat) := by
    push_cast
    ring
  rw [round_eq, hquot, Rat.floor_natCast_div_natCast, Int.natCast_ediv]

/-- R140, R141: the period of a byte is the rounded quotient. -/
theorem quantize_eq_round (b : Byte) :
    ((quantize b).toNat : ℤ) = round (((b.toNat : ℚ) + 6666 / 1000) / (13333 / 1000)) := by
  rw [round_sample_eq_div, quantize_toNat]

/-- Settles O27: the rounded quotient is a period, so the bound 0 never acts. -/
theorem quantizerIsTheRoundedQuotient : Obligations.QuantizerIsTheRoundedQuotient := by
  intro b s
  refine ⟨quantize b, exec_q b s, ?_⟩
  rw [← quantize_eq_round, max_eq_right (Int.natCast_nonneg _)]

/-! ## The table of ranges -/

/-- The first number that the integer form of R141 takes to a period above `k`. -/
def rangeStart (k : Nat) : Nat := (26666 * k + 2000) / 2000

theorem rangeStart_le_iff (k : Nat) (b : Byte) : rangeStart k ≤ b.toNat ↔ k < (quantize b).toNat := by
  rw [rangeStart, quantize_toNat]
  omega

/-- R142: the table's column of first bytes, without that of period 0. -/
theorem rangeStart_table : [1, 14, 27, 40, 54, 67, 80, 94, 107, 120] ++
    [134, 147, 160, 174, 187, 200, 214, 227, 240, 254] = (List.range periodMax).map rangeStart := by decide

/-- R142: as many ranges begin at or below a byte as its period says. -/
theorem length_filter_rangeStart_le (b : Byte) :
    (((List.range periodMax).map rangeStart).filter fun n => n ≤ b.toNat).length = (quantize b).toNat := by
  rw [List.filter_map, List.length_map]
  simp only [Function.comp_def, rangeStart_le_iff]
  rw [← List.Ico.zero_bot, List.Ico.filter_lt, List.Ico.length, min_eq_right (quantize_le_periodMax b), Nat.sub_zero]

/-- R55: the table holds the period of each byte at its place. -/
theorem romQ_getElem? (b : Byte) : romQ[b.toNat]? = some (quantize b) := by
  rw [romQ, List.getElem?_map, List.getElem?_range b.isLt, Option.map_some, BitVec.ofNat_toNat, BitVec.setWidth_eq]

/-- Settles O28: the integer form fixes the bound, the ranges and the entries of the table. -/
theorem quantizerTable : Obligations.QuantizerTable := by
  intro b
  refine ⟨quantize_toNat b, quantize_le_periodMax b, ?_, romQ_getElem? b⟩
  rw [rangeStart_table]
  exact (length_filter_rangeStart_le b).symm

end Sys2Proof.Machine
end

section
/-! The Framer's three operations in every state, and the Framer over a stream: it loses no period and leaves no sync pair
inside a frame (42_framer.md R151 to R156). -/

namespace Sys2Proof.Machine

/-! ## The operations -/

/-- Settles O29. -/
theorem appendStoresThePeriod : Obligations.AppendStoresThePeriod :=
  fun _ _ hp => appendOp_live hp

/-- R152: on a frame and the pair, sync detection hands over the frame. -/
theorem syncOp_pair {s : State} {f : List Period} {ev : List Event} (hfb : s.fb = f ++ [8, 3])
    (he : s.work.ev = some ev) :
    syncOp s = .next ((s.setFb []).setWork (frameWork f { s.work with f := some f })) := by
  rw [syncOp_hit hfb ((syncHit_iff _).2 ⟨f, rfl⟩) he, take_pair]

/-- Settles O30: the sync test holds on no other buffer than a frame and the pair. -/
theorem syncDetectionCutsOrKeeps : Obligations.SyncDetectionCutsOrKeeps := by
  intro s ev he
  constructor
  · intro f hfb
    exact syncOp_pair hfb he
  · intro hfb
    have hmiss : syncHit s.fb = false := Bool.eq_false_iff.2 fun hit => ((syncHit_iff s.fb).1 hit).elim hfb
    exact syncOp_miss rfl hmiss

/-- Settles O31: the flush hands over the whole buffer, with no test of its end. -/
theorem flushHandsOverTheWholeBuffer : Obligations.FlushHandsOverTheWholeBuffer :=
  fun s _ he => emitFrameOp_live (f := s.fb) he

/-! ## Framing -/

/-- R155: a 3 after an 8 closes the frame before the 8, any other period stays in the buffer. -/
theorem framesGo_cons (fb : List Period) (p : Period) (ps : List Period) :
    (∃ f, fb = f ++ [8] ∧ p = 3 ∧ framesGo fb (p :: ps) = f :: framesGo [] ps) ∨
      (¬ (fb.getLast? = some 8 ∧ p = 3) ∧ framesGo fb (p :: ps) = framesGo (fb ++ [p]) ps) := by
  rw [framesGo, endsInSync_eq]
  by_cases h : fb.getLast? = some 8 ∧ p = 3
  · obtain ⟨hlast, rfl⟩ := h
    obtain ⟨f, rfl⟩ := List.getLast?_eq_some_iff.1 hlast
    have hframe : (f ++ [8] ++ [3]).take ((f ++ [8] ++ [3]).length - 2) = f := by simp
    exact .inl ⟨f, rfl, rfl, by rw [if_pos ((syncHit_append _ _).2 ⟨hlast, rfl⟩), hframe]⟩
  · exact .inr ⟨h, if_neg (mt (syncHit_append fb p).1 h)⟩

theorem reinsertSync_cons (f : List Period) {fs : List (List Period)} (h : fs ≠ []) :
    reinsertSync (f :: fs) = f ++ [8, 3] ++ reinsertSync fs := by
  obtain ⟨g, rest, rfl⟩ := List.exists_cons_of_ne_nil h
  rfl

/-- R156 from any buffer: the frames with the pairs put back are the buffer and then the stream. -/
theorem reinsertSync_framesGo (ps : List Period) : ∀ fb : List Period, reinsertSync (framesGo fb ps) = fb ++ ps := by
  induction ps with
  | nil => exact fun fb => (List.append_nil fb).symm
  | cons p ps ih =>
    intro fb
    obtain ⟨f, rfl, rfl, hcut⟩ | ⟨-, hkeep⟩ := framesGo_cons fb p ps
    · rw [hcut, reinsertSync_cons f (framesGo_ne_nil ps []), ih]
      simp
    · rw [hkeep, ih, List.append_assoc, List.singleton_append]

theorem noSyncInside_of_append {g : List Period} : ∀ {f : List Period}, noSyncInside (f ++ g) → noSyncInside f
  | [], _ => trivial
  | [_], _ => trivial
  | _ :: b :: rest, ⟨hab, h⟩ => ⟨hab, noSyncInside_of_append (f := b :: rest) h⟩

/-- R153 (f): a buffer that holds no pair is cut or grows without one, so no frame holds a pair. -/
theorem noSyncInside_framesGo (ps : List Period) : ∀ {fb : List Period}, noSyncInside fb →
    ∀ f ∈ framesGo fb ps, noSyncInside f := by
  induction ps with
  | nil => exact fun hfb f hf => List.mem_singleton.1 hf ▸ hfb
  | cons p ps ih =>
    intro fb hfb
    obtain ⟨f, rfl, rfl, hcut⟩ | ⟨hmiss, hkeep⟩ := framesGo_cons fb p ps
    · rw [hcut, List.forall_mem_cons]
      exact ⟨noSyncInside_of_append hfb, ih trivial⟩
    · rw [hkeep]
      exact ih (noSyncInside_append hfb hmiss)

/-- Settles O32. -/
theorem framingIsExact : Obligations.FramingIsExact :=
  fun ps => ⟨reinsertSync_framesGo ps [], framesGo_ne_nil ps [], noSyncInside_framesGo ps trivial⟩

end Sys2Proof.Machine
end

section
/-! RENDER: every period contributes its fillers and one separator, the last one closes the waveform
(43_waveform_renderer.md R166 to R169). -/

namespace Sys2Proof.Machine

/-! ## One period -/

/-- R167, R168: the period 0 renders like the period 1. -/
theorem renderPeriod_length (dt : Nat) : (renderPeriod dt).length = max dt 1 := by
  rw [renderPeriod, List.length_append, List.length_replicate, List.length_singleton]
  omega

theorem count_separator_renderPeriod (dt : Nat) : (renderPeriod dt).count .separator = 1 := by
  simp [renderPeriod, List.count_replicate]

theorem renderPeriod_getLast? (dt : Nat) : (renderPeriod dt).getLast? = some .separator :=
  List.getLast?_concat

/-! ## The periods of a frame -/

/-- R166: the periods in order, then the trailing separator. -/
theorem renderFrame_eq (f : List Period) :
    renderFrame f = (f.flatMap fun dt => renderPeriod dt.toNat) ++ [.separator] := by
  rw [renderFrame, renderNats, List.flatMap_map]

theorem flatMap_renderPeriod_length (f : List Period) :
    (f.flatMap fun dt => renderPeriod dt.toNat).length = (f.map fun dt => max dt.toNat 1).sum := by
  simp only [List.length_flatMap, renderPeriod_length]

theorem count_separator_flatMap_renderPeriod (f : List Period) :
    (f.flatMap fun dt => renderPeriod dt.toNat).count .separator = f.length := by
  induction f with
  | nil => rfl
  | cons dt f ih =>
    rw [List.flatMap_cons, List.count_append, count_separator_renderPeriod, ih, List.length_cons, Nat.add_comm]

/-- The symbols of the periods end in the separator of the last one. -/
theorem flatMap_renderPeriod_getLast? {f : List Period} (h : f ≠ []) :
    (f.flatMap fun dt => renderPeriod dt.toNat).getLast? = some .separator := by
  obtain ⟨g, dt, rfl⟩ := (List.eq_nil_or_concat' f).resolve_left h
  rw [List.flatMap_append, List.flatMap_singleton, List.getLast?_append, renderPeriod_getLast?, Option.some_or]

/-! ## The waveform -/

/-- R168. -/
theorem renderFrame_length (f : List Period) :
    (renderFrame f).length = 1 + (f.map fun dt => max dt.toNat 1).sum := by
  rw [renderFrame_eq, List.length_append, flatMap_renderPeriod_length, List.length_singleton, Nat.add_comm]

/-- R169: one separator for each period, and the trailing one. -/
theorem count_separator_renderFrame (f : List Period) : (renderFrame f).count .separator = f.length + 1 := by
  rw [renderFrame_eq, List.count_append, count_separator_flatMap_renderPeriod, List.count_singleton_self]

theorem renderFrame_getLast? (f : List Period) : (renderFrame f).getLast? = some .separator := by
  rw [renderFrame_eq, List.getLast?_concat]

/-- The waveform begins with the symbols of the first periods, whichever follow. -/
theorem flatMap_renderPeriod_take_prefix (f : List Period) (n : Nat) :
    ((f.take n).flatMap fun dt => renderPeriod dt.toNat) <+: renderFrame f := by
  rw [renderFrame_eq]
  nth_rw 2 [← List.take_append_drop n f]
  rw [List.flatMap_append, List.append_assoc]
  exact List.prefix_append _ _

/-- R169: the separator of period `j` is the last symbol of the part that the periods up to `j` render. -/
theorem renderFrame_getElem?_separator {f : List Period} {j : Nat} (hj : j < f.length) :
    (renderFrame f)[((f.take (j + 1)).map fun dt => max dt.toNat 1).sum - 1]? = some .separator := by
  have hne : f.take (j + 1) ≠ [] := List.ne_nil_of_length_pos (by rw [List.length_take]; omega)
  have hlast := flatMap_renderPeriod_getLast? hne
  rw [List.getLast?_eq_getElem?, flatMap_renderPeriod_length] at hlast
  obtain ⟨hlt, hsep⟩ := List.getElem?_eq_some_iff.1 hlast
  rw [List.prefix_iff_getElem?.1 (flatMap_renderPeriod_take_prefix f (j + 1)) _ hlt, hsep]

/-- Settles O33: the waveform is `Render(F)`, and its symbols are counted period by period. -/
theorem renderPlacesTheSeparators : Obligations.RenderPlacesTheSeparators :=
  fun _ f hf => ⟨renderFrame f, renderOp_live hf, renderFrame_length f, count_separator_renderFrame f,
    renderFrame_getLast? f, fun _ hj => renderFrame_getElem?_separator hj⟩

end Sys2Proof.Machine
end

section
/-! The code words and the decode loop: each word's encoding and effect, the loop's one result, and the bits that it
yields for the symbols consumed (44_rll_decoder.md R177 to R188). -/

namespace Sys2Proof
open Machine

/-! ## Which windows decode to a word -/

/-- R90: each code word has one row. -/
theorem CodeRow.eq_of_instr : ∀ r ∈ codeRom, ∀ r' ∈ codeRom, r.instr = r'.instr → r = r' := by decide

/-- R88: a window decodes to a code word where the word's row fits it, and nowhere else. -/
theorem decodeWindow_eq_instr_iff {r : CodeRow} (hr : r ∈ codeRom) (w : WindowWord) (avail : Nat) :
    decodeWindow w avail = r.instr ↔ r.fits w avail = true := by
  refine ⟨fun h => ?_, decodeWindow_of_fits hr⟩
  rw [decodeWindow] at h
  cases hf : codeRom.find? (·.fits w avail) with
  | none =>
    rw [hf] at h
    exact absurd h.symm (CodeRow.instr_ne_rllStop r hr)
  | some r' =>
    rw [hf] at h
    rw [← CodeRow.eq_of_instr r' (List.mem_of_find?_eq_some hf) r hr h]
    exact List.find?_some (p := fun x : CodeRow => x.fits w avail) hf

/-- R88, R177: the window at the cursor decodes to a code word where the whole pattern stands there. -/
theorem decodeWindow_windowWord_eq_instr_iff {r : CodeRow} (hr : r ∈ codeRom) (wf : List Symbol) (pos : Nat) :
    decodeWindow (windowWord wf pos) (windowAvail wf pos) = r.instr ↔ memRead wf pos r.len = some r.pattern := by
  rw [decodeWindow_eq_instr_iff hr, CodeRow.fits_windowWord hr, matchRow_iff]

/-- R88, R177: the window at the cursor decodes to the stop where no row matches there. -/
theorem decodeWindow_windowWord_eq_rllStop_iff (wf : List Symbol) (pos : Nat) :
    decodeWindow (windowWord wf pos) (windowAvail wf pos) = .rllStop ↔ matchAt wf pos = none := by
  refine ⟨fun h => ?_, decodeWindow_of_matchAt_none⟩
  cases hm : matchAt wf pos with
  | none => rfl
  | some r => exact absurd ((decodeWindow_of_matchAt hm).symm.trans h) (CodeRow.instr_ne_rllStop r (matchAt_mem hm))

/-- Settles O7. -/
theorem windowDecodeIsPatternMatch : Obligations.WindowDecodeIsPatternMatch := fun wf pos =>
  ⟨fun _ hr => decodeWindow_windowWord_eq_instr_iff hr wf pos,
    (decodeWindow_windowWord_eq_rllStop_iff wf pos).trans (matchAt_eq_none_iff wf pos)⟩

namespace Machine

/-! ## The effects of the code words and of the stop -/

theorem exec_codeWord_of_match {r : CodeRow} (hr : r ∈ codeRom) {s : State} {wf : List Symbol} {pos : Nat}
    {bits : List Bool} (hw : s.work.wf = some wf) (hp : s.work.pos = some pos) (hb : s.work.bits = some bits)
    (hm : memRead wf pos r.len = some r.pattern) :
    exec r.instr s = .next (s.setCursor (pos + r.len) (bits ++ r.bits)) := by
  rw [exec_codeWord hr, codeWordOp_live hw hp hb, if_pos ((matchRow_iff r wf pos).2 hm)]

theorem exec_codeWord_of_not_match {r : CodeRow} (hr : r ∈ codeRom) {s : State} {wf : List Symbol} {pos : Nat}
    {bits : List Bool} (hw : s.work.wf = some wf) (hp : s.work.pos = some pos) (hb : s.work.bits = some bits)
    (hm : memRead wf pos r.len ≠ some r.pattern) : exec r.instr s = .next s := by
  rw [exec_codeWord hr, codeWordOp_live hw hp hb, if_neg (mt (matchRow_iff r wf pos).1 hm)]

/-- R178 to R184 have one form: the rule of a word is its row of the code table. -/
theorem codeWordRule_of_row {r : CodeRow} (hr : r ∈ codeRom) {p g : List Nat} (hp : r.pattern = pat p)
    (hg : r.bits = grp g) : codeWordRule r.instr p g r.value r.mask := by
  have hlen : r.len = p.length := by rw [CodeRow.len, hp, pat, List.length_map]
  rw [codeWordRule, ← hlen, ← hp, ← hg]
  exact ⟨fun w avail => (decodeWindow_eq_instr_iff hr w avail).trans (r.fits_iff w avail),
    fun _ _ _ _ hw hpos hb => ⟨exec_codeWord_of_match hr hw hpos hb, exec_codeWord_of_not_match hr hw hpos hb⟩⟩

/-- Settles O34: the columns written out are those of the code table. -/
theorem codeWordsMatchAndAdvance : Obligations.CodeWordsMatchAndAdvance :=
  ⟨codeWordRule_of_row (r := row10) (by decide) rfl rfl, codeWordRule_of_row (r := row11) (by decide) rfl rfl,
    codeWordRule_of_row (r := row000) (by decide) rfl rfl, codeWordRule_of_row (r := row010) (by decide) rfl rfl,
    codeWordRule_of_row (r := row011) (by decide) rfl rfl, codeWordRule_of_row (r := row0010) (by decide) rfl rfl,
    codeWordRule_of_row (r := row0011) (by decide) rfl rfl⟩

/-- Settles O35. -/
theorem stopKeepsBitsAndCursor : Obligations.StopKeepsBitsAndCursor :=
  fun _ _ _ _ hw hp hb => stopOp_live hw hp hb

/-! ## The decode loop -/

/-- R187, R89: at most one word matches at a cursor, so the loop has one result. -/
theorem decodes_unique {wf : List Symbol} {pos pos₁ pos₂ : Nat} {bits bits₁ bits₂ : List Bool}
    (h₁ : Decodes wf pos bits pos₁ bits₁) (h₂ : Decodes wf pos bits pos₂ bits₂) : pos₂ = pos₁ ∧ bits₂ = bits₁ := by
  induction h₁ with
  | stop hstop =>
    cases h₂ with
    | stop => exact ⟨rfl, rfl⟩
    | word r hr hm => exact absurd hm (hstop r hr)
  | word r hr hm _ ih =>
    cases h₂ with
    | stop hstop => exact absurd hm (hstop r hr)
    | word r' hr' hm' h₂ =>
      obtain rfl : r = r' := Option.some.inj ((matchAt_of_memRead hr hm).symm.trans (matchAt_of_memRead hr' hm'))
      exact ih h₂

/-- R186: RLLDECODE writes the result of the loop from the start cursor and no bits. -/
theorem exec_rllDecode_of_decodes {s : State} {wf : List Symbol} {pos : Nat} {bits : List Bool}
    (hw : s.work.wf = some wf) (h : Decodes wf startOffset [] pos bits) :
    exec .rllDecode s = .next (s.setCursor pos bits) := by
  obtain ⟨hpos, hbits⟩ := decodes_unique h (decodes_rllDecodeFrom wf)
  rw [← hpos, ← hbits]
  exact rllDecodeOp_live hw

/-- Settles O36. -/
theorem decodeRunsTheLoop : Obligations.DecodeRunsTheLoop := fun _ wf hw =>
  have hloop := decodes_rllDecodeFrom wf
  ⟨_, _, exec_rllDecode_of_decodes hw hloop, hloop, fun _ _ h => decodes_unique hloop h⟩

/-- R188 from any cursor: each word emits half as many bits as it consumes symbols, and it consumes symbols of the
waveform only. -/
theorem decodes_length {wf : List Symbol} {pos pos' : Nat} {bits bits' : List Bool}
    (h : Decodes wf pos bits pos' bits') :
    2 * bits'.length + pos = pos' + 2 * bits.length ∧ pos' ≤ max pos wf.length := by
  induction h with
  | stop => exact ⟨Nat.add_comm _ _, le_max_left _ _⟩
  | word r hr hm _ ih =>
    obtain ⟨hbits, hpos⟩ := ih
    have hinside := (memRead_eq_some.1 hm).1
    have hhalf : r.len = 2 * r.bits.length := CodeRow.pattern_length r hr
    rw [List.length_append] at hbits
    omega

/-- Settles O37. -/
theorem bitsAreHalfTheSymbols : Obligations.BitsAreHalfTheSymbols := by
  intro wf pos bits h
  obtain ⟨hbits, hpos⟩ := decodes_length h
  rw [List.length_nil] at hbits
  omega

end Machine
end Sys2Proof
end

section
/-! The inverse of the code table (44_rll_decoder.md R190 to R194): an encoded frame renders to the symbols of its code
words, decodes to its bits, and holds no sync pair. -/

namespace Sys2Proof.Machine

/-! ## Bit strings as sequences of code words -/

/-- The bits and the symbols of one sequence of code words. -/
inductive CodeWords : List Bool → List Symbol → Prop where
  | nil : CodeWords [] []
  | cons {bits : List Bool} {ws : List Symbol} (r : CodeRow) (hr : r ∈ codeRom) (h : CodeWords bits ws) :
      CodeWords (r.bits ++ bits) (r.pattern ++ ws)

/-- The encoder's step for a group is the code word of that group in front. -/
theorem codeWords_cons_of_map {r : CodeRow} (hr : r ∈ codeRom) {rest : List Bool} {ws : List Symbol}
    (ih : ∀ {ws'}, encodeGroups rest = some ws' → CodeWords rest ws')
    (h : (encodeGroups rest).map (r.pattern ++ ·) = some ws) : CodeWords (r.bits ++ rest) ws := by
  obtain ⟨ws', hrest, rfl⟩ := Option.map_eq_some_iff.1 h
  exact .cons r hr (ih hrest)

/-- R190: the encoder writes the pattern of each group, and the groups are those of the code table. -/
theorem codeWords_of_encodeGroups (bits : List Bool) :
    ∀ {ws : List Symbol}, encodeGroups bits = some ws → CodeWords bits ws := by
  induction bits using encodeGroups.induct with
  | case1 => exact fun h => Option.some.inj h ▸ .nil
  | case2 rest ih => exact codeWords_cons_of_map (r := row10) (by decide) ih
  | case3 rest ih => exact codeWords_cons_of_map (r := row11) (by decide) ih
  | case4 rest ih => exact codeWords_cons_of_map (r := row000) (by decide) ih
  | case5 rest ih => exact codeWords_cons_of_map (r := row010) (by decide) ih
  | case6 rest ih => exact codeWords_cons_of_map (r := row011) (by decide) ih
  | case7 rest ih => exact codeWords_cons_of_map (r := row0010) (by decide) ih
  | case8 rest ih => exact codeWords_cons_of_map (r := row0011) (by decide) ih
  | case9 => -- the rest begins with no group, so there is no encoding
    intro ws h
    simp_all [encodeGroups]

/-- R190: the periods of an encoding are the run lengths of `--`, the code words of the bits, and `|`. -/
theorem exists_codeWords_of_encodePeriods {bits : List Bool} {ps : List Nat} (h : encodePeriods bits = some ps) :
    ∃ ws, CodeWords bits ws ∧ ps = runLengths 0 ([.filler, .filler] ++ ws ++ [.separator]) := by
  obtain ⟨syms, henc, rfl⟩ := Option.map_eq_some_iff.1 h
  obtain ⟨ws, hws, rfl⟩ := Option.map_eq_some_iff.1 henc
  exact ⟨ws, codeWords_of_encodeGroups bits hws, rfl⟩

/-- R188 for the encoder. -/
theorem CodeWords.length_symbols {bits : List Bool} {ws : List Symbol} (h : CodeWords bits ws) :
    ws.length = 2 * bits.length := by
  induction h with
  | nil => rfl
  | cons r hr _ ih =>
    rw [List.length_append, List.length_append, ih, CodeRow.pattern_length r hr, Nat.mul_add]

/-! ## Decoding the code words -/

theorem memRead_append {α : Type} (pre ys rest : List α) :
    memRead (pre ++ (ys ++ rest)) pre.length ys.length = some ys := by
  rw [memRead_eq_some, List.drop_left, List.take_left, List.length_append, List.length_append]
  exact ⟨by omega, rfl⟩

theorem CodeRow.four_le_len : ∀ r ∈ codeRom, 4 ≤ r.len := by decide

/-- R188: fewer than four symbols are no code word. -/
theorem memRead_ne_pattern_of_short {wf : List Symbol} {pos : Nat} (h : wf.length < pos + 4) :
    ∀ r ∈ codeRom, memRead wf pos r.len ≠ some r.pattern := by
  intro r hr hm
  have hinside := (memRead_eq_some.1 hm).1
  have hlen := CodeRow.four_le_len r hr
  omega

/-- R191: from the first code word the loop takes them all, and stops before a tail too short for a word. -/
theorem CodeWords.decodes {bits : List Bool} {ws : List Symbol} (h : CodeWords bits ws) {tail : List Symbol}
    (htail : tail.length < 4) : ∀ (pre : List Symbol) (acc : List Bool),
      Decodes (pre ++ (ws ++ tail)) pre.length acc (pre.length + ws.length) (acc ++ bits) := by
  induction h with
  | nil =>
    intro pre acc
    rw [List.append_nil]
    exact .stop (memRead_ne_pattern_of_short (by simpa using htail))
  | @cons bits ws r hr _ ih =>
    intro pre acc
    have hrest := ih (pre ++ r.pattern) (acc ++ r.bits)
    rw [List.length_append, List.append_assoc pre] at hrest
    rw [List.length_append, ← Nat.add_assoc, ← List.append_assoc acc, List.append_assoc r.pattern]
    refine .word r hr ?_ hrest
    exact memRead_append pre r.pattern (ws ++ tail)

/-! ## Rendering the run lengths -/

theorem renderPeriod_succ (n : Nat) : renderPeriod (n + 1) = List.replicate n .filler ++ [.separator] := rfl

/-- R190, R166: the periods of a string that ends in a separator render to the string, after the open run. -/
theorem flatMap_renderPeriod_runLengths (xs : List Symbol) : ∀ n : Nat,
    (runLengths n (xs ++ [.separator])).flatMap renderPeriod =
      List.replicate n .filler ++ (xs ++ [.separator]) := by
  induction xs with
  | nil => exact fun n => List.append_nil _
  | cons x xs ih =>
    intro n
    cases x with
    | filler =>
      rw [List.cons_append, runLengths, ih, List.replicate_succ', List.append_assoc, List.singleton_append]
    | separator =>
      rw [List.cons_append, runLengths, List.flatMap_cons, ih, renderPeriod_succ, List.append_assoc]
      rfl

/-- The waveform of an encoded frame: the encoding and the trailing separator. -/
theorem renderFrame_of_runLengths {f : List Period} {xs : List Symbol}
    (h : f.map BitVec.toNat = runLengths 0 (xs ++ [.separator])) :
    renderFrame f = xs ++ [.separator, .separator] := by
  rw [renderFrame, renderNats, h, flatMap_renderPeriod_runLengths, List.replicate_zero, List.nil_append,
    List.append_assoc]
  rfl

/-! ## The round trip -/

/-- Settles O39: the waveform is `--`, the code words of the bits and two separators, in which the loop takes every word
and stops before the separators. -/
theorem encodedFrameDecodesToItsBits : Obligations.EncodedFrameDecodesToItsBits := by
  intro bits f s henc hf
  obtain ⟨ws, hws, hruns⟩ := exists_codeWords_of_encodePeriods henc
  have hlen : ws.length = 2 * bits.length := hws.length_symbols
  have hwf : renderFrame f = [.filler, .filler] ++ (ws ++ [.separator, .separator]) :=
    (renderFrame_of_runLengths hruns).trans (List.append_assoc ..)
  have hloop : Decodes (renderFrame f) startOffset [] (2 + ws.length) bits :=
    hwf ▸ hws.decodes (by decide) [.filler, .filler] []
  have hrender : exec .render s = .next (s.setWf (renderFrame f)) := renderOp_live hf
  refine ⟨renderFrame f, ?_, ?_, ?_⟩
  · rw [hrender, andThen_next, exec_rllDecode_of_decodes (State.setWf_work_wf ..) hloop, hlen, Nat.add_comm]
    rfl
  · simp [hwf, hlen]
  · rw [hwf, ← hlen, ← List.append_assoc]
    exact List.drop_left' (by simp)

/-! ## No sync pair in an encoding -/

/-- What holds of run lengths where `n` symbols of the first run are already read: that run ends with one more at
least, every run is 3 to 8, and no 3 follows an 8. -/
structure CodedRuns (n : Nat) (ps : List Nat) : Prop where
  head : ∀ p ∈ ps.head?, n < p
  range : ∀ p ∈ ps, 3 ≤ p ∧ p ≤ 8
  chain : ps.IsChain fun p q => p = 8 → q ≠ 3

theorem codedRuns_nil (n : Nat) : CodedRuns n [] where
  head := by simp
  range := by simp
  chain := .nil

/-- A run in front: an 8 is allowed where three symbols of the next run are already read. -/
theorem CodedRuns.cons {m n p : Nat} {ps : List Nat} (h : CodedRuns m ps) (hn : 2 ≤ n) (hnp : n < p) (hp : p ≤ 8)
    (hm : p = 8 → m = 3) : CodedRuns n (p :: ps) where
  head := by simpa using hnp
  range := List.forall_mem_cons.2 ⟨⟨by omega, hp⟩, h.range⟩
  chain := List.isChain_cons.2 ⟨fun q hq hp8 => by
    have hlt := h.head q hq
    have hm3 := hm hp8
    omega, h.chain⟩

/-- R194: a code word closes the open run of two or three fillers and leaves such a run open; only `----|---` after
three closes a run of 8, and it leaves three. -/
theorem codedRuns_pattern_append {rest : List Symbol} (h : ∀ m, 2 ≤ m → m ≤ 3 → CodedRuns m (runLengths m rest)) :
    ∀ r ∈ codeRom, ∀ n, 2 ≤ n → n ≤ 3 → CodedRuns n (runLengths n (r.pattern ++ rest)) := by
  intro r hr n h2 h3
  have after2 : CodedRuns 2 (runLengths 2 rest) := h 2 (by omega) (by omega)
  have after3 : CodedRuns 3 (runLengths 3 rest) := h 3 (by omega) (by omega)
  have after32 : CodedRuns 2 (3 :: runLengths 2 rest) := after2.cons (by omega) (by omega) (by omega) (by omega)
  simp only [codeRom, List.mem_cons, List.not_mem_nil, or_false] at hr
  rcases hr with rfl | rfl | rfl | rfl | rfl | rfl | rfl
  · exact after2.cons (p := n + 2) h2 (by omega) (by omega) (by omega)
  · exact after3.cons (p := n + 1) h2 (by omega) (by omega) (by omega)
  · exact after32.cons (p := n + 1) h2 (by omega) (by omega) (by omega)
  · exact after2.cons (p := n + 4) h2 (by omega) (by omega) (by omega)
  · exact after3.cons (p := n + 3) h2 (by omega) (by omega) (by omega)
  · exact after32.cons (p := n + 3) h2 (by omega) (by omega) (by omega)
  · exact after3.cons (p := n + 5) h2 (by omega) (by omega) (by omega)

theorem CodeWords.codedRuns {bits : List Bool} {ws : List Symbol} (h : CodeWords bits ws) :
    ∀ n, 2 ≤ n → n ≤ 3 → CodedRuns n (runLengths n (ws ++ [.separator])) := by
  induction h with
  | nil => exact fun n h2 h3 => (codedRuns_nil 3).cons (p := n + 1) h2 (by omega) (by omega) (by omega)
  | cons r hr _ ih =>
    intro n h2 h3
    rw [List.append_assoc]
    exact codedRuns_pattern_append ih r hr n h2 h3

/-- Settles O40: the two leading fillers are an open run of two. -/
theorem encodedFrameHoldsNoSyncPair : Obligations.EncodedFrameHoldsNoSyncPair := by
  intro bits ps henc
  obtain ⟨ws, hws, rfl⟩ := exists_codeWords_of_encodePeriods henc
  have hruns : CodedRuns 2 (runLengths 0 ([.filler, .filler] ++ ws ++ [.separator])) :=
    hws.codedRuns 2 (by omega) (by omega)
  refine ⟨hruns.range, fun k h8 h3 => ?_⟩
  obtain ⟨hk, hk8⟩ := List.getElem?_eq_some_iff.1 h8
  obtain ⟨hk', hk3⟩ := List.getElem?_eq_some_iff.1 h3
  exact List.isChain_iff_getElem.1 hruns.chain k hk' hk8 hk3

end Sys2Proof.Machine
end

section
/-! The Byte Assembler (45_byte_assembler.md R201 to R203): a bit string is read as a number first bit most significant,
so the bit of weight `2 ^ (7 - j)` of a byte is place `j` of its group of 8 bits. -/

namespace Sys2Proof.Machine

/-! ## A bit string as a number -/

@[simp] theorem bin_nil : bin [] = 0 := rfl

/-- A bit at the end is the new bit of weight 1, and doubles the weight of every bit before it. -/
@[simp] theorem bin_concat (bs : List Bool) (b : Bool) : bin (bs ++ [b]) = Nat.bit b (bin bs) := by
  rw [Nat.bit_val]
  exact List.foldl_concat ..

/-- R10: the weights run from the last bit to the first. -/
theorem testBit_bin (bs : List Bool) : ∀ i, (bin bs).testBit i = bs.reverse.getD i false := by
  induction bs using List.reverseRecOn with
  | nil => simp
  | append_singleton bs b ih =>
    intro i
    rw [bin_concat, List.reverse_concat]
    cases i with
    | zero => rw [Nat.testBit_bit_zero, List.getD_cons_zero]
    | succ i => rw [Nat.testBit_bit_succ, ih, List.getD_cons_succ]

/-! ## A slice of a sequence -/

theorem slice_length {α : Type} {xs : List α} {i j : Nat} (hj : j ≤ xs.length) : (slice xs i j).length = j - i := by
  simp [slice, hj]

theorem slice_getD {α : Type} (xs : List α) (d : α) {i j n : Nat} (hn : i + n < j) :
    (slice xs i j).getD n d = xs.getD (i + n) d := by
  simp [slice, List.getD_eq_getElem?_getD, List.getElem?_take_of_lt hn]

/-! ## The assembled bytes -/

/-- R203: the dropped bit and the bits of the incomplete tail give no byte. -/
@[simp] theorem assembleBits_length (bits : List Bool) : (assembleBits bits).length = (bits.length - 1) / 8 := by
  simp [assembleBits]

theorem assembleBits_getD {bits : List Bool} {k : Nat} (hk : k < (bits.length - 1) / 8) :
    (assembleBits bits).getD k 0 = BitVec.ofNat 8 (bin (slice (bits.drop 1) (8 * k) (8 * k + 8))) := by
  simp [assembleBits, hk]

/-- R202: byte `k` is made of the bits from `1 + 8k` on, most significant first. -/
theorem assembleBits_getLsbD {bits : List Bool} {k j : Nat} (hk : k < (bits.length - 1) / 8) (hj : j < 8) :
    ((assembleBits bits).getD k 0).getLsbD (7 - j) = bits.getD (1 + 8 * k + j) false := by
  have hlen : (slice (bits.drop 1) (8 * k) (8 * k + 8)).length = 8 := by
    rw [slice_length (by rw [List.length_drop]; omega), Nat.add_sub_cancel_left]
  have hplace : 8 - 1 - (7 - j) = j := by omega
  calc ((assembleBits bits).getD k 0).getLsbD (7 - j)
      = (bin (slice (bits.drop 1) (8 * k) (8 * k + 8))).testBit (7 - j) := by
        rw [assembleBits_getD hk, BitVec.getLsbD_ofNat, decide_eq_true (by omega), Bool.true_and]
    _ = (slice (bits.drop 1) (8 * k) (8 * k + 8)).getD j false := by
        rw [testBit_bin, List.getD_reverse _ (by omega), hlen, hplace]
    _ = (bits.drop 1).getD (8 * k + j) false := slice_getD _ _ (by omega)
    _ = bits.getD (1 + 8 * k + j) false := by
        rw [List.getD_eq_getElem?_getD, List.getElem?_drop, ← Nat.add_assoc, List.getD_eq_getElem?_getD]

/-- R202: the assembler does not look at the bit that it drops. -/
theorem assembleBits_cons_congr (x y : Bool) (bits : List Bool) : assembleBits (x :: bits) = assembleBits (y :: bits) :=
  rfl

/-- Settles O41: the bytes are those of `assembleBits`, and `BUF` is the only register that the operation writes. -/
theorem assemblePacksTheBits : Obligations.AssemblePacksTheBits := by
  intro s bits hbits
  refine ⟨assembleBits bits, assembleOp_live hbits, assembleBits_length bits, fun k j hk hj => ?_,
    fun x => assembleBits_cons_congr x false _⟩
  rw [assembleBits_length] at hk
  exact assembleBits_getLsbD hk hj

end Sys2Proof.Machine
end

section
/-! The Classifier (46_classifier.md R210 to R216): which records a class selects, read off the first byte, and what each
class and CLASSIFY do with a record. -/

namespace Sys2Proof.Machine

/-! ## Which records a class selects -/

theorem tagEq_iff (buf : List Byte) : tagEq buf = true ↔ buf.head? = some 0xF8 := by
  cases buf with
  | nil => simp [tagEq]
  | cons t rest => rw [tagEq_cons, decide_eq_true_eq, List.head?_cons, Option.some_inj]

theorem tagGt_iff (buf : List Byte) : tagGt buf = true ↔ ∃ t, buf.head? = some t ∧ 0xF8 < t.toNat := by
  cases buf with
  | nil => simp [tagGt]
  | cons t rest => simp [tagGt_cons]

/-- The test of REC.UNK: no byte, or a first byte that selects one of the other two classes. -/
theorem empty_or_tagEq_or_tagGt_iff (buf : List Byte) :
    (recordEmpty buf || tagEq buf || tagGt buf) = true ↔ ∀ t, buf.head? = some t → 0xF8 ≤ t.toNat := by
  cases buf with
  | nil => simp [recordEmpty]
  | cons t rest =>
    have heq : t = 0xF8 ↔ 0xF8 = t.toNat := by rw [eq_comm (a := 0xF8)]; exact BitVec.toNat_inj.symm
    simp only [recordEmpty, List.isEmpty_cons, Bool.false_or, Bool.or_eq_true, tagEq_cons, tagGt_cons,
      decide_eq_true_eq, heq, List.head?_cons, Option.some_inj, forall_eq', Nat.le_iff_lt_or_eq]
    exact Or.comm

/-! ## The classes on a live record -/

theorem exec_recDm {s : State} {buf : List Byte} (h : s.work.buf = some buf) : exec .recDm s =
    if tagEq buf then checkedRecordOp engine56 .dm capDm 14 buf s else .next s := by
  change recDmOp s = _
  rw [recDmOp, h, withLive_some]

theorem exec_recAm {s : State} {buf : List Byte} (h : s.work.buf = some buf) : exec .recAm s =
    if tagGt buf then checkedRecordOp engine16 .am capAm 4 buf s else .next s := by
  change recAmOp s = _
  rw [recAmOp, h, withLive_some]

theorem exec_recUnk {s : State} {buf : List Byte} (h : s.work.buf = some buf) : exec .recUnk s =
    if recordEmpty buf || tagEq buf || tagGt buf then .next s
    else emitRecord .unk capUnk 1 sentinel buf s := by
  change recUnkOp s = _
  rw [recUnkOp, h, withLive_some]

/-- Settles O43: CLASSIFY runs REC.NONE here, which only asks that the record is live. -/
theorem emptyRecordHasNoEvent : Obligations.EmptyRecordHasNoEvent := by
  intro s hbuf
  have hclassify : exec .classify s = .next s := classifyOp_nil hbuf
  exact ⟨(exec_decodeTag hbuf).trans hclassify, hclassify⟩

/-- Settles O47: the test of each class fails on such a record. -/
theorem unselectedClassHasNoEffect : Obligations.UnselectedClassHasNoEffect := by
  intro s buf hbuf
  refine ⟨fun hne => ?_, fun hle => ?_, fun hge => ?_⟩
  · rw [exec_recDm hbuf, if_neg (mt (tagEq_iff buf).1 hne)]
  · have hgt : ¬ tagGt buf = true := fun h =>
      let ⟨t, ht, hlt⟩ := (tagGt_iff buf).1 h
      Nat.not_lt_of_le (hle t ht) hlt
    rw [exec_recAm hbuf, if_neg hgt]
  · rw [exec_recUnk hbuf, if_pos ((empty_or_tagEq_or_tagGt_iff buf).2 hge)]

/-- Settles O44: the value in `ACC` and in the event is that of the 56-bit engine over the checked message. -/
theorem dataMarkIsReported : Obligations.DataMarkIsReported := by
  intro s rest ev hbuf hev
  refine ⟨crc engine56 (checkedMessage capDm (0xF8 :: rest)), rfl, ?_⟩
  rw [exec_recDm hbuf, if_pos ((tagEq_iff _).2 rfl), checkedRecordOp_live hev]
  rfl

/-- Settles O45: the value in `ACC` and in the event is that of the 16-bit engine over the checked message. -/
theorem addressMarkIsReported : Obligations.AddressMarkIsReported := by
  intro s t rest ev htag hbuf hev
  refine ⟨crc engine16 (checkedMessage capAm (t :: rest)), rfl, ?_⟩
  rw [exec_recAm hbuf, if_pos ((tagGt_iff _).2 ⟨t, rfl, htag⟩), checkedRecordOp_live hev]
  rfl

/-- Settles O46: the first byte selects neither engine, so the event carries the sentinel. -/
theorem unknownRecordIsReported : Obligations.UnknownRecordIsReported := by
  intro s t rest ev htag hbuf hev
  have hunk : ¬ (recordEmpty (t :: rest) || tagEq (t :: rest) || tagGt (t :: rest)) = true := fun h =>
    Nat.not_lt_of_le htag ((empty_or_tagEq_or_tagGt_iff _).1 h t rfl)
  rw [exec_recUnk hbuf, if_neg hunk, emitRecord_live hev]
  rfl

/-! ## CLASSIFY -/

theorem exists_recordEvent {buf : List Byte} (h : buf ≠ []) : ∃ r, recordEvent buf = some (.record r) :=
  (recordEvent_cases buf).resolve_left (mt (recordEvent_eq_none_iff buf).1 h)

/-- Settles O42: the events that CLASSIFY adds are those of `recordEvent`: none for the empty record, else one. -/
theorem classifyRunsTheSelectedClass : Obligations.ClassifyRunsTheSelectedClass := by
  intro s buf ev hbuf hev
  refine ⟨(exec_decodeTag hbuf).symm, _, (recordEvent buf).toList, classifyOp_live hbuf hev, rfl, ?_, fun hne => ?_⟩
  · rintro rfl
    rfl
  · obtain ⟨r, hr⟩ := exists_recordEvent hne
    exact ⟨r, by rw [hr, Option.toList_some]⟩

end Sys2Proof.Machine
end

section
/-! The check-value engines (47_crc_engines.md R231 to R238): the bit-serial rule in plain arithmetic and its bound, its
linearity over exclusive-OR, and the residue of a message followed by its own check value. -/

namespace Sys2Proof.Machine

/-! ## The two engines -/

/-- The shape that both engines have (R231, R233): the width is in whole bytes and leaves room for the carry position,
the polynomial ends in bit N, and the initial value fits the width. -/
structure Engine.Sound (e : Engine) : Prop where
  bytes : 8 ∣ e.n
  pos : 0 < e.n
  width : e.n ≤ 56
  polyTop : e.poly.getLsbD e.n = true
  poly_lt : e.poly.toNat < 2 ^ (e.n + 1)
  init_lt : e.init.toNat < 2 ^ e.n

theorem engine16_sound : engine16.Sound := by constructor <;> decide

theorem engine56_sound : engine56.Sound := by constructor <;> decide

theorem Engine.sound_of_eq {e : Engine} (h : e = engine16 ∨ e = engine56) : e.Sound := by
  obtain rfl | rfl := h
  · exact engine16_sound
  · exact engine56_sound

theorem Engine.Sound.eight_le {e : Engine} (he : e.Sound) : 8 ≤ e.n := Nat.le_of_dvd he.pos he.bytes

/-! ## The bit-serial rule in plain arithmetic -/

/-- One iteration on the register as a number (R231): the double and, where it reaches `2^N`, the exclusive-OR with the
polynomial. -/
def Engine.double (e : Engine) (a : Nat) : Nat := if 2 ^ e.n ≤ 2 * a then (2 * a) ^^^ e.poly.toNat else 2 * a

theorem toNat_shiftLeft_one {e : Engine} (he : e.Sound) {acc : Acc} (h : acc.toNat < 2 ^ e.n) :
    (acc <<< 1).toNat = 2 * acc.toNat := by
  have hpow : 2 ^ e.n ≤ 2 ^ 56 := Nat.pow_le_pow_right two_pos he.width
  rw [BitVec.toNat_shiftLeft, Nat.shiftLeft_eq]
  omega

/-- A number below `2^(N+1)` has bit N set exactly where it reaches `2^N`. -/
theorem testBit_eq_decide_le {a n : Nat} (h : a < 2 ^ (n + 1)) : a.testBit n = decide (2 ^ n ≤ a) := by
  by_cases hle : 2 ^ n ≤ a
  · rw [decide_eq_true hle]
    exact Nat.testBit_of_two_pow_le_and_two_pow_add_one_gt hle h
  · rw [decide_eq_false hle]
    exact Nat.testBit_lt_two_pow (Nat.lt_of_not_le hle)

theorem crcBit_toNat {e : Engine} (he : e.Sound) {acc : Acc} (h : acc.toNat < 2 ^ e.n) :
    (crcBit e acc).toNat = e.double acc.toNat := by
  have hdouble : (acc <<< 1).toNat = 2 * acc.toNat := toNat_shiftLeft_one he h
  have hcarry : carry e (acc <<< 1) = decide (2 ^ e.n ≤ 2 * acc.toNat) := by
    rw [carry, BitVec.getLsbD, hdouble, testBit_eq_decide_le (by omega)]
  rw [crcBit, hcarry, Engine.double]
  by_cases hle : 2 ^ e.n ≤ 2 * acc.toNat <;> simp [hle, hdouble]

/-- The polynomial's bit N cancels the carry, so the register is back within its width. -/
theorem Engine.Sound.double_lt {e : Engine} (he : e.Sound) {a : Nat} (h : a < 2 ^ e.n) : e.double a < 2 ^ e.n := by
  rw [Engine.double]
  split
  case isFalse hlt => exact Nat.lt_of_not_le hlt
  case isTrue hle =>
    have ha : 2 * a < 2 ^ (e.n + 1) := by omega
    refine Nat.lt_pow_two_of_testBit _ fun i hi => ?_
    rw [Nat.testBit_xor]
    obtain rfl | hi := Nat.eq_or_lt_of_le hi
    · have hpoly : e.poly.toNat.testBit e.n = true := he.polyTop
      simp [hpoly, testBit_eq_decide_le ha, hle]
    · have hpow : 2 ^ (e.n + 1) ≤ 2 ^ i := Nat.pow_le_pow_right two_pos hi
      rw [Nat.testBit_lt_two_pow (ha.trans_le hpow), Nat.testBit_lt_two_pow (he.poly_lt.trans_le hpow)]
      rfl

theorem crcBit_lt {e : Engine} (he : e.Sound) {acc : Acc} (h : acc.toNat < 2 ^ e.n) :
    (crcBit e acc).toNat < 2 ^ e.n := by
  rw [crcBit_toNat he h]
  exact he.double_lt h

theorem crcBits_toNat {e : Engine} (he : e.Sound) (k : Nat) : ∀ {acc : Acc}, acc.toNat < 2 ^ e.n →
    (crcBits e k acc).toNat = e.double^[k] acc.toNat := by
  induction k with
  | zero => exact fun _ => rfl
  | succ k ih =>
    intro acc h
    rw [crcBits, ih (crcBit_lt he h), crcBit_toNat he h, Function.iterate_succ_apply]

theorem crcBits_lt {e : Engine} (he : e.Sound) (k : Nat) : ∀ {acc : Acc}, acc.toNat < 2 ^ e.n →
    (crcBits e k acc).toNat < 2 ^ e.n := by
  induction k with
  | zero => exact fun h => h
  | succ k ih => exact fun h => ih (crcBit_lt he h)

/-! ## One byte and a message -/

/-- A byte in the top byte of the register stays within the width. -/
theorem Engine.Sound.topByte_lt {e : Engine} (he : e.Sound) (b : Byte) : b.toNat * 2 ^ (e.n - 8) < 2 ^ e.n :=
  calc b.toNat * 2 ^ (e.n - 8)
    _ < 2 ^ 8 * 2 ^ (e.n - 8) := Nat.mul_lt_mul_of_pos_right b.isLt (Nat.two_pow_pos _)
    _ = 2 ^ e.n := by rw [← Nat.pow_add, Nat.add_sub_cancel' he.eight_le]

/-- R232: the byte enters bits N-1 to N-8 of the register. -/
theorem toNat_xor_topByte {e : Engine} (he : e.Sound) (acc : Acc) (b : Byte) :
    (acc ^^^ (b.setWidth 57 <<< (e.n - 8))).toNat = acc.toNat ^^^ (b.toNat * 2 ^ (e.n - 8)) := by
  have hb : b.toNat * 2 ^ (e.n - 8) < 2 ^ 57 :=
    (he.topByte_lt b).trans_le (Nat.pow_le_pow_right two_pos (he.width.trans (by decide)))
  have hset : (b.setWidth 57).toNat = b.toNat := BitVec.toNat_setWidth_of_le (by decide)
  rw [BitVec.toNat_xor, BitVec.toNat_shiftLeft, hset, Nat.shiftLeft_eq, Nat.mod_eq_of_lt hb]

theorem xor_topByte_lt {e : Engine} (he : e.Sound) {acc : Acc} (h : acc.toNat < 2 ^ e.n) (b : Byte) :
    (acc ^^^ (b.setWidth 57 <<< (e.n - 8))).toNat < 2 ^ e.n := by
  rw [toNat_xor_topByte he]
  exact Nat.xor_lt_two_pow h (he.topByte_lt b)

theorem crcByte_toNat {e : Engine} (he : e.Sound) {acc : Acc} (h : acc.toNat < 2 ^ e.n) (b : Byte) :
    (crcByte e acc b).toNat = e.double^[8] (acc.toNat ^^^ (b.toNat * 2 ^ (e.n - 8))) := by
  rw [crcByte, crcBits_toNat he 8 (xor_topByte_lt he h b), toNat_xor_topByte he]

theorem crcFrom_lt {e : Engine} (he : e.Sound) (msg : List Byte) : ∀ {acc : Acc}, acc.toNat < 2 ^ e.n →
    (crcFrom e acc msg).toNat < 2 ^ e.n := by
  induction msg with
  | nil => exact fun h => h
  | cons b msg ih => exact fun h => ih (crcBits_lt he 8 (xor_topByte_lt he h b))

/-- R233: the check value fits the engine's width. -/
theorem crc_lt {e : Engine} (he : e.Sound) (msg : List Byte) : (crc e msg).toNat < 2 ^ e.n :=
  crcFrom_lt he msg he.init_lt

theorem crcFrom_append (e : Engine) (acc : Acc) (xs ys : List Byte) :
    crcFrom e acc (xs ++ ys) = crcFrom e (crcFrom e acc xs) ys := List.foldl_append

theorem crc_concat (e : Engine) (msg : List Byte) (b : Byte) : crc e (msg ++ [b]) = crcByte e (crc e msg) b :=
  crcFrom_append e e.init msg [b]

/-- Settles O48. -/
theorem enginesWriteTheirCheckValue : Obligations.EnginesWriteTheirCheckValue := fun _ msg =>
  ⟨⟨_, rfl, rfl, crc_lt engine16_sound msg⟩, _, rfl, rfl, crc_lt engine56_sound msg⟩

/-- Settles O49: the eight iterations of the byte are eight times the same doubling of the register. -/
theorem engineByteIsEightShifts : Obligations.EngineByteIsEightShifts := by
  intro e msg b h
  have he : e.Sound := Engine.sound_of_eq h
  refine ⟨rfl, ?_⟩
  rw [crc_concat, crcByte_toNat he (crc_lt he msg)]
  exact (List.foldl_const e.double _ (List.range 8)).symm

/-! ## Linearity over exclusive-OR -/

/-- R236: the shift is linear, and the polynomial is added where one carry is set and not both. -/
theorem crcBit_xor (e : Engine) (x y : Acc) : crcBit e (x ^^^ y) = crcBit e x ^^^ crcBit e y := by
  have hcarry : carry e ((x <<< 1) ^^^ (y <<< 1)) = (carry e (x <<< 1) ^^ carry e (y <<< 1)) := BitVec.getLsbD_xor
  simp only [crcBit, BitVec.shiftLeft_xor_distrib, hcarry]
  cases carry e (x <<< 1) <;> cases carry e (y <<< 1)
  · rfl
  · exact BitVec.xor_assoc ..
  · simp only [Bool.xor_false, if_true, Bool.false_eq_true, if_false]
    ac_rfl
  · simp only [if_true, Bool.xor_self, Bool.false_eq_true, if_false]
    calc x <<< 1 ^^^ y <<< 1
      _ = x <<< 1 ^^^ y <<< 1 ^^^ (e.poly ^^^ e.poly) := by rw [BitVec.xor_self, BitVec.xor_zero]
      _ = x <<< 1 ^^^ e.poly ^^^ (y <<< 1 ^^^ e.poly) := by ac_rfl

theorem crcBits_xor (e : Engine) (k : Nat) : ∀ x y : Acc,
    crcBits e k (x ^^^ y) = crcBits e k x ^^^ crcBits e k y := by
  induction k with
  | zero => exact fun _ _ => rfl
  | succ k ih =>
    intro x y
    rw [crcBits, crcBit_xor, ih]
    rfl

theorem crcByte_xor (e : Engine) (x y : Acc) (a b : Byte) :
    crcByte e (x ^^^ y) (a ^^^ b) = crcByte e x a ^^^ crcByte e y b := by
  simp only [crcByte, ← crcBits_xor, BitVec.setWidth_xor, BitVec.shiftLeft_xor_distrib]
  congr 1
  ac_rfl

theorem crcFrom_xor (e : Engine) (as : List Byte) : ∀ (bs : List Byte) (x y : Acc), as.length = bs.length →
    crcFrom e (x ^^^ y) (List.zipWith (· ^^^ ·) as bs) = crcFrom e x as ^^^ crcFrom e y bs := by
  induction as with
  | nil =>
    intro bs x y h
    rw [List.length_eq_zero_iff.1 h.symm]
    rfl
  | cons a as ih =>
    intro bs x y h
    cases bs with
    | nil => cases h
    | cons b bs =>
      have hstep := ih bs (crcByte e x a) (crcByte e y b) (Nat.succ.inj h)
      rwa [← crcByte_xor] at hstep

/-- The initial value is no part of the iterations: an engine from a register of zeros is the same rule. -/
theorem crc_zeroInit (e : Engine) (msg : List Byte) : crc e.zeroInit msg = crcFrom e 0 msg := rfl

/-- Settles O50: the two initial values cancel. -/
theorem enginesAreAffine : Obligations.EnginesAreAffine := by
  intro e a b _ hlen
  have hinit : e.init ^^^ e.init = 0 := BitVec.xor_self
  rw [crc_zeroInit, ← hinit, crcFrom_xor e a b _ _ hlen]
  rfl

/-! ## The residue of a message with its own check value -/

/-- Where nothing is shifted out of the width no polynomial is added. -/
theorem iterate_double {e : Engine} (k : Nat) : ∀ {a : Nat}, a * 2 ^ k < 2 ^ e.n → e.double^[k] a = a * 2 ^ k := by
  induction k with
  | zero => exact fun _ => (Nat.mul_one _).symm
  | succ k ih =>
    intro a h
    have hshift : 2 * a * 2 ^ k = a * 2 ^ (k + 1) := by ring
    have hlt : 2 * a < 2 ^ e.n := (Nat.le_mul_of_pos_right _ (Nat.two_pow_pos k)).trans_lt (hshift ▸ h)
    rw [Function.iterate_succ_apply, Engine.double, if_neg (Nat.not_le_of_lt hlt), ih (hshift ▸ h), hshift]

/-- The exclusive-OR of a number with its own upper bits leaves its lower bits. -/
theorem xor_div_mul_two_pow (a k : Nat) : a ^^^ (a / 2 ^ k * 2 ^ k) = a % 2 ^ k := by
  refine Nat.eq_of_testBit_eq fun i => ?_
  rw [Nat.testBit_xor, Nat.testBit_mul_two_pow, Nat.testBit_div_two_pow, Nat.testBit_mod_two_pow]
  by_cases hi : k ≤ i
  · simp [hi, Nat.not_lt_of_le hi]
  · simp [hi, Nat.lt_of_not_le hi]

/-- A byte that is the register's top byte clears it, and the iterations shift the other bits up. -/
theorem crcByte_topByte {e : Engine} (he : e.Sound) {acc : Acc} {b : Byte} (h : acc.toNat < 2 ^ e.n)
    (hb : b.toNat = acc.toNat / 2 ^ (e.n - 8)) : (crcByte e acc b).toNat = acc.toNat * 2 ^ 8 % 2 ^ e.n := by
  have hn : 2 ^ e.n = 2 ^ (e.n - 8) * 2 ^ 8 := by rw [← Nat.pow_add, Nat.sub_add_cancel he.eight_le]
  have hlt : acc.toNat % 2 ^ (e.n - 8) * 2 ^ 8 < 2 ^ e.n := by
    rw [hn]
    exact Nat.mul_lt_mul_of_pos_right (Nat.mod_lt _ (Nat.two_pow_pos _)) (Nat.two_pow_pos 8)
  rw [crcByte_toNat he h, hb, xor_div_mul_two_pow, iterate_double 8 hlt, hn, Nat.mul_mod_mul_right]

/-- R238: the byte of the check value that comes after `k` others, most significant first. -/
def checkByte (e : Engine) (r : Acc) (k : Nat) : Byte := (r >>> (e.n - 8 * (k + 1))).setWidth 8

theorem checkBytes_eq (e : Engine) (r : Acc) : checkBytes e r = (List.range (e.n / 8)).map (checkByte e r) := rfl

/-- After `k` bytes have been shifted out, the next byte of the check value is the register's top byte. -/
theorem checkByte_toNat {e : Engine} (r : Acc) {k : Nat} (hk : 8 * (k + 1) ≤ e.n) :
    (checkByte e r k).toNat = r.toNat * 2 ^ (8 * k) % 2 ^ e.n / 2 ^ (e.n - 8) := by
  obtain ⟨d, hd⟩ := Nat.exists_eq_add_of_le hk
  have hn : 2 ^ e.n = 2 ^ (d + 8) * 2 ^ (8 * k) := by rw [← Nat.pow_add, hd]; congr 1; ring
  have htop : 2 ^ (e.n - 8) = 2 ^ d * 2 ^ (8 * k) := by rw [← Nat.pow_add]; congr 1; omega
  have hshift : e.n - 8 * (k + 1) = d := by omega
  rw [checkByte, hshift, BitVec.toNat_setWidth, BitVec.toNat_ushiftRight, Nat.shiftRight_eq_div_pow, hn, htop,
    Nat.mul_mod_mul_right, Nat.mul_div_mul_right _ _ (Nat.two_pow_pos _), Nat.pow_add, Nat.mod_mul_right_div_self]

theorem crcFrom_checkByte {e : Engine} (he : e.Sound) {r : Acc} (h : r.toNat < 2 ^ e.n) (k : Nat) : 8 * k ≤ e.n →
    (crcFrom e r ((List.range k).map (checkByte e r))).toNat = r.toNat * 2 ^ (8 * k) % 2 ^ e.n := by
  induction k with
  | zero => exact fun _ => by simp [crcFrom, Nat.mod_eq_of_lt h]
  | succ k ih =>
    intro hk
    have hprev := ih (by omega)
    rw [List.range_succ, List.map_append, crcFrom_append]
    refine (crcByte_topByte he (crcFrom_lt he _ h) ?_).trans ?_
    · rw [hprev, checkByte_toNat r hk]
    · rw [hprev, Nat.mod_mul_mod, Nat.mul_assoc, ← Nat.pow_add]
      rfl

/-- Settles O51: with all bytes of the check value taken in, every bit of the register has been shifted out. -/
theorem ownCheckValueLeavesZero : Obligations.OwnCheckValueLeavesZero := by
  intro e msg h
  have he : e.Sound := Engine.sound_of_eq h
  have hn : 8 * (e.n / 8) = e.n := Nat.mul_div_cancel' he.bytes
  refine BitVec.eq_of_toNat_eq ?_
  rw [crc, crcFrom_append, checkBytes_eq]
  refine (crcFrom_checkByte he (crc_lt he msg) (e.n / 8) hn.le).trans ?_
  rw [hn, Nat.mul_mod_left]
  rfl

end Sys2Proof.Machine
end

section
/-! FRAME_OVERFLOW and the way out of it (60_exceptions.md R256, R257, R261). -/

namespace Sys2Proof.Machine

theorem accepting_eq_false_of_stopped {s : State} (h : s.phase = .done ∨ s.fault = .frameOverflow) :
    s.accepting = false := by
  refine accepting_eq_false ?_
  rintro ⟨hrun, hnone⟩
  obtain hdone | hover := h
  · simp [hrun] at hdone
  · simp [hnone] at hover

/-- R34: a buffer without a bound is never full. -/
theorem full_eq_false_of_inf {s : State} (h : s.frameCap = none) : s.full = false :=
  full_eq_false (by simp [h])

/-- R256: a SAMPLE that finds room sets no fault. -/
theorem sampleOp_fault_of_room {s t : State} {b : Byte} (hroom : s.full = false) (h : sampleOp b s = .next t) :
    t.fault = .none := by
  obtain ⟨hacc, ⟨hfull, _⟩ | ⟨_, _, rfl⟩ | ⟨_, _, rfl⟩⟩ := sampleOp_next h
  · simp [hroom] at hfull
  · exact ((accepting_iff s).1 hacc).2
  · exact ((accepting_iff s).1 hacc).2

/-- Settles O16: the overflow is tested before the sample is quantized, so no sync test is reached. -/
theorem frameOverflowIsTaken : Obligations.FrameOverflowIsTaken := by
  refine ⟨?overflow, ?faulted, ?unbounded⟩
  case overflow =>
    intro s b hrun hfault hcap
    exact sampleOp_full ((accepting_iff s).2 ⟨hrun, hfault⟩) ((full_iff s).2 hcap)
  case faulted =>
    intro s b hover
    have hacc : s.accepting = false := accepting_eq_false_of_stopped (.inr hover)
    exact ⟨sampleOp_refused hacc, eosOp_refused hacc, ⟨_, execNop_eq s⟩, _, execReset_eq s⟩
  case unbounded =>
    intro s t b hcap h
    exact sampleOp_fault_of_room (full_eq_false_of_inf hcap) h

/-- R257: of the four host operations only NOP and RESET complete where SAMPLE and EOS are refused. -/
theorem exec_hostOp_stopped {w : HostWord} {s t : State} (hacc : s.accepting = false)
    (h : exec (decodeHostOp w) s = .next t) :
    t = s.setWork Work.dead ∨ decodeHostOp w = .reset ∧ t = (restoreReset s).setWork Work.dead := by
  rcases decodeHostOp_cases w with hw | hw | hw | hw <;> rw [hw] at h
  · cases (execNop_eq s).symm.trans h
    exact .inl rfl
  · cases (sampleOp_refused hacc).symm.trans h
  · cases (eosOp_refused hacc).symm.trans h
  · cases (execReset_eq s).symm.trans h
    exact .inr ⟨hw, rfl⟩

/-- Settles O19: the step waits, or runs the next word's operation, and that is a NOP or a RESET. -/
theorem onlyResetLeavesDoneOrFault : Obligations.OnlyResetLeavesDoneOrFault := by
  intro s t hq hstopped h
  cases hi : s.input with
  | nil =>
    cases (step_waiting hq hi).symm.trans h
    exact .inl ⟨rfl, rfl, rfl, rfl⟩
  | cons w rest =>
    have hacc : (s.setInput rest).accepting = false := accepting_eq_false_of_stopped hstopped
    rw [step_port hq hi] at h
    obtain rfl | ⟨hw, rfl⟩ := exec_hostOp_stopped hacc h
    · exact .inl ⟨rfl, rfl, rfl, rfl⟩
    · have hquiet : (restoreReset (s.setInput rest)).work = Work.dead := hq
      exact .inr ⟨w, rest, rfl, hw, (State.setWork_of_eq hquiet).symm⟩

end Sys2Proof.Machine
end
